-- ==== Sys2Proof/Word.lean ====
section
/-!
DEFINITION. The words of the machine (bytes and binary32 values), the draw key of a NaN, and the data the
host hands to the core: event records, the parameter snapshot, the sample-rate argument and the four commands.
Rules: 00_scope.md R8, R14; 10_state.md R44; 20_memory.md R80; 30_encoding.md R105, R109.
-/

namespace Sys2Proof

/-- One byte of an event record (20 R80). -/
abbrev Byte := BitVec 8

/-- An IEEE 754 binary32 value by its 32 bits (00 R8). Its arithmetic is in Machine/Float.lean. -/
abbrev F32 := BitVec 32

/-- The key of one arithmetic operation inside one step: the path of call sites that leads to it, innermost
first, ending in the step's number. Different operations of a run have different keys, so a NaN result can be a
fresh draw for each of them (00 R14; log 7). -/
abbrev Key := List Nat

/-- The `sampleRate` argument of `ALLOCATE`: "binary64 or f32" (30 R105), by its bits. -/
inductive Number where
  | f32 (x : F32)
  | f64 (x : BitVec 64)
  deriving DecidableEq, Repr, Inhabited

/-- One event of a block: its sample offset and its bytes, status byte first (20 R80, R81). -/
structure Event where
  offset : Nat
  bytes  : List Byte
  deriving DecidableEq, Repr, Inhabited

/-- The parameter snapshot, the core's control registers (10 R44). The three `int32` fields are integers. -/
structure Snapshot where
  numVoices           : Int
  detune              : F32
  oscMix              : F32
  tune                : F32
  volumeTrim          : F32
  noiseMix            : F32
  outputLevel         : F32
  envAttack           : F32
  envDecay            : F32
  envSustain          : F32
  envRelease          : F32
  filterAttack        : F32
  filterDecay         : F32
  filterSustain       : F32
  filterRelease       : F32
  glideMode           : Int
  glideRate           : F32
  glideBend           : F32
  lfoInc              : F32
  lfoWaveform         : Int
  vibrato             : F32
  pwmDepth            : F32
  filterKeyTracking   : F32
  filterQ             : F32
  filterLFODepth      : F32
  filterEnvDepth      : F32
  velocitySensitivity : F32
  deriving DecidableEq, Repr, Inhabited

/-- A host command, selected by its constructor and not by bits (30 R105, R109). -/
inductive HostCommand where
  | allocate (sampleRate : Number) (blockSize : Int)
  | deallocate
  | reset
  | processBlock (snapshot : Snapshot) (events : List Event) (frames channels : Nat)
  deriving DecidableEq, Repr, Inhabited

end Sys2Proof
end

