-- ==== Sys2Proof/Syntax.lean ====
section
/-!
DEFINITION. The instructions: one constructor for each row of spec/opcode_table.json (30_encoding.md R105, R107).
An event record keeps every bit of its masked 24-bit word that the row does not fix, the ignored ones too (the
channel, an ignored velocity), so that encoding it again drops no bit.
-/

namespace Sys2Proof

/-- `ch` is the channel nibble (30 R101: it selects nothing); `n`, `vel`, `c`, `val`, `prog`, `d1`, `d2` are data
bytes after masking to seven bits (R102, R106); `bend` is the 14-bit value `d1 + 128 * d2` (R106). -/
inductive Instr where
  /-- Row 1, `NOTE_OFF` (44 R233); the velocity is ignored. -/
  | noteOff (ch : BitVec 4) (n vel : BitVec 7)
  /-- Row 2, `NOTE_ON_V0` (44 R233): a note-on record with velocity 0. -/
  | noteOnV0 (ch : BitVec 4) (n : BitVec 7)
  /-- Row 3, `NOTE_ON` (44 R232), `vel > 0`. -/
  | noteOn (ch : BitVec 4) (n vel : BitVec 7)
  /-- Row 4, `POLY_PRESSURE` (44 R246). -/
  | polyPressure (ch : BitVec 4) (d1 d2 : BitVec 7)
  /-- Row 5, `CC_MODWHEEL`, controller 0x01 (44 R241). -/
  | ccModwheel (ch : BitVec 4) (val : BitVec 7)
  /-- Row 6, `CC_SUSTAIN`, controller 0x40 (44 R240). -/
  | ccSustain (ch : BitVec 4) (val : BitVec 7)
  /-- Row 7, `CC_ALL_NOTES_OFF`, controllers 0x78 to 0x7F (44 R242). -/
  | ccAllNotesOff (ch : BitVec 4) (c val : BitVec 7)
  /-- Row 8, `CC_OTHER`, any other controller (44 R243). -/
  | ccOther (ch : BitVec 4) (c val : BitVec 7)
  /-- Row 9, `PROGRAM_CHANGE` (44 R245). -/
  | programChange (ch : BitVec 4) (prog d2 : BitVec 7)
  /-- Row 10, `CHANNEL_PRESSURE` (44 R246). -/
  | channelPressure (ch : BitVec 4) (d1 d2 : BitVec 7)
  /-- Row 11, `PITCH_BEND` (44 R244). -/
  | pitchBend (ch : BitVec 4) (bend : BitVec 14)
  /-- Row 12, `SYSTEM` (44 R246); `low` is the low nibble of the status byte. -/
  | system (low : BitVec 4) (d1 d2 : BitVec 7)
  /-- Row 13, `DATA_FIRST` (44 R246): the first byte is below 0x80. -/
  | dataFirst (d0 d1 d2 : BitVec 7)
  /-- `ALLOCATE(sampleRate, blockSize)` (47 R330). -/
  | allocate (sampleRate : Number) (blockSize : Int)
  /-- `DEALLOCATE()` (47 R331). -/
  | deallocate
  /-- `RESET()` (47 R332). -/
  | reset
  /-- `PROCESS_BLOCK(snapshot, events, N, channels)` (47 R320); `frames` is `N`. -/
  | processBlock (snapshot : Snapshot) (events : List Event) (frames channels : Nat)
  deriving DecidableEq, Repr, Inhabited

end Sys2Proof
end

