-- ==== Sys2Proof/WellFormed.lean ====
section
/-!
DEFINITION. Which terms of `Instr` are instructions: the operand conditions of the opcode rows (30_encoding.md R107)
and the `int32` operands of the host commands (R105).
-/

namespace Sys2Proof

/-- An integer that an `int32` holds. -/
def fitsInt32 (z : Int) : Bool := decide (-(2 ^ 31) ≤ z) && decide (z < 2 ^ 31)

/-- The three `int32` fields of a snapshot fit (10 R44). Its legal values (10 R45) are checked by the
command itself. -/
def Snapshot.wellFormed (p : Snapshot) : Bool :=
  fitsInt32 p.numVoices && fitsInt32 p.glideMode && fitsInt32 p.lfoWaveform

/-- A controller number of row 8: none of those of rows 5, 6 and 7. -/
def isOtherController (c : BitVec 7) : Bool := c != 0x01 && c != 0x40 && decide (c < 0x78)

/-- The well-formed instructions: exactly the ones a record or a command can stand for. -/
def Instr.wellFormed : Instr → Bool
  | .noteOff _ _ _ => true
  | .noteOnV0 _ _ => true
  | .noteOn _ _ vel => vel != 0
  | .polyPressure _ _ _ => true
  | .ccModwheel _ _ => true
  | .ccSustain _ _ => true
  | .ccAllNotesOff _ c _ => decide (0x78 ≤ c)
  | .ccOther _ c _ => isOtherController c
  | .programChange _ _ _ => true
  | .channelPressure _ _ _ => true
  | .pitchBend _ _ => true
  | .system _ _ _ => true
  | .dataFirst _ _ _ => true
  | .allocate _ blockSize => fitsInt32 blockSize
  | .deallocate => true
  | .reset => true
  | .processBlock snapshot _ _ _ => snapshot.wellFormed

end Sys2Proof
end

