-- ==== Sys2Proof/Decode.lean ====
section
/-!
DEFINITION. Decoding of event records and selection of host commands, then the encoder, written from
30_encoding.md R100 to R109 and 44_events.md R230. The first-match table of R107 is `rowTable`.
-/

namespace Sys2Proof

/-- Why a byte sequence is no instruction. Neither is a trap: a long record is ignored (30 R104), and a block
holding an empty one is refused before any record is read (30 R103; 47 R325). -/
inductive DecodeError where
  | emptyRecord
  | longRecord
  deriving DecidableEq, Repr, Inhabited

/-- The data bits of a byte: `byte & 0x7F` (30 R102). -/
def dataBits (b : Byte) : BitVec 7 := b.extractLsb' 0 7

/-- The status nibble, bits 7:4 of byte 0 (30 R100). -/
def statusNibble (b : Byte) : BitVec 4 := b.extractLsb' 4 4

/-- The channel, bits 3:0 of byte 0 (30 R100). -/
def channelNibble (b : Byte) : BitVec 4 := b.extractLsb' 0 4

/-- A note-on record: velocity 0 is row 2, any other row 3 (30 R107). -/
def decodeNoteOn (ch : BitVec 4) (d1 d2 : BitVec 7) : Instr :=
  if d2 = 0 then .noteOnV0 ch d1 else .noteOn ch d1 d2

/-- A control-change record: rows 5 to 8, in order (30 R107). -/
def decodeController (ch : BitVec 4) (d1 d2 : BitVec 7) : Instr :=
  if d1 = 0x01 then .ccModwheel ch d2
  else if d1 = 0x40 then .ccSustain ch d2
  else if 0x78 ≤ d1 then .ccAllNotesOff ch d1 d2
  else .ccOther ch d1 d2

/-- A record by its status nibble, low nibble and masked data bytes (30 R104, R107). -/
def decodeFields (status low : BitVec 4) (d1 d2 : BitVec 7) : Instr :=
  if status = 0x8 then .noteOff low d1 d2
  else if status = 0x9 then decodeNoteOn low d1 d2
  else if status = 0xA then .polyPressure low d1 d2
  else if status = 0xB then decodeController low d1 d2
  else if status = 0xC then .programChange low d1 d2
  else if status = 0xD then .channelPressure low d1 d2
  else if status = 0xE then .pitchBend low (d2 ++ d1)
  else if status = 0xF then .system low d1 d2
  else .dataFirst (status.extractLsb' 0 3 ++ low) d1 d2

/-- A record of three bytes; a shorter one has its missing bytes 0 (30 R103). -/
def decodeRecord (b0 b1 b2 : Byte) : Instr :=
  decodeFields (statusNibble b0) (channelNibble b0) (dataBits b1) (dataBits b2)

/-- Decoding an event record, total on any bytes: length decides first (30 R103, R104). -/
def decode : List Byte → Except DecodeError Instr
  | [] => .error .emptyRecord
  | [b0] => .ok (decodeRecord b0 0 0)
  | [b0, b1] => .ok (decodeRecord b0 b1 0)
  | [b0, b1, b2] => .ok (decodeRecord b0 b1 b2)
  | _ :: _ :: _ :: _ :: _ => .error .longRecord

/-- The instruction a host command is, by its constructor (30 R109). -/
def commandInstr : HostCommand → Instr
  | .allocate sampleRate blockSize => .allocate sampleRate blockSize
  | .deallocate => .deallocate
  | .reset => .reset
  | .processBlock snapshot events frames channels => .processBlock snapshot events frames channels

/-- The 24-bit word `W` of a record after masking (30 R107). -/
def recordWord (b0 b1 b2 : Byte) : BitVec 24 :=
  b0 ++ (b1 &&& 0x7F#8) ++ (b2 &&& 0x7F#8)

/-- One row of the table of 30 R107. -/
structure EncodingRow where
  mnemonic : String
  matched  : BitVec 24
  mask     : BitVec 24
  deriving DecidableEq, Repr, Inhabited

/-- The table of 30 R107, in its order. -/
def rowTable : List EncodingRow :=
  [ ⟨"NOTE_OFF",         0x800000, 0xF00000⟩,
    ⟨"NOTE_ON_V0",       0x900000, 0xF0007F⟩,
    ⟨"NOTE_ON",          0x900000, 0xF00000⟩,
    ⟨"POLY_PRESSURE",    0xA00000, 0xF00000⟩,
    ⟨"CC_MODWHEEL",      0xB00100, 0xF07F00⟩,
    ⟨"CC_SUSTAIN",       0xB04000, 0xF07F00⟩,
    ⟨"CC_ALL_NOTES_OFF", 0xB07800, 0xF07800⟩,
    ⟨"CC_OTHER",         0xB00000, 0xF00000⟩,
    ⟨"PROGRAM_CHANGE",   0xC00000, 0xF00000⟩,
    ⟨"CHANNEL_PRESSURE", 0xD00000, 0xF00000⟩,
    ⟨"PITCH_BEND",       0xE00000, 0xF00000⟩,
    ⟨"SYSTEM",           0xF00000, 0xF00000⟩,
    ⟨"DATA_FIRST",       0x000000, 0x800000⟩ ]

/-- The first row a word matches (30 R107). -/
def firstRow (w : BitVec 24) : Option String :=
  (rowTable.find? fun row => w &&& row.mask == row.matched).map (·.mnemonic)

/-- The mnemonic of an instruction, as the opcode table spells it. -/
def Instr.mnemonic : Instr → String
  | .noteOff _ _ _ => "NOTE_OFF"
  | .noteOnV0 _ _ => "NOTE_ON_V0"
  | .noteOn _ _ _ => "NOTE_ON"
  | .polyPressure _ _ _ => "POLY_PRESSURE"
  | .ccModwheel _ _ => "CC_MODWHEEL"
  | .ccSustain _ _ => "CC_SUSTAIN"
  | .ccAllNotesOff _ _ _ => "CC_ALL_NOTES_OFF"
  | .ccOther _ _ _ => "CC_OTHER"
  | .programChange _ _ _ => "PROGRAM_CHANGE"
  | .channelPressure _ _ _ => "CHANNEL_PRESSURE"
  | .pitchBend _ _ => "PITCH_BEND"
  | .system _ _ _ => "SYSTEM"
  | .dataFirst _ _ _ => "DATA_FIRST"
  | .allocate _ _ => "ALLOCATE"
  | .deallocate => "DEALLOCATE"
  | .reset => "RESET"
  | .processBlock _ _ _ _ => "PROCESS_BLOCK"

/-- A record of a status nibble, a low nibble and two data bytes with bit 7 clear (30 R100). -/
def encodeRecord (status low : BitVec 4) (d1 d2 : BitVec 7) : List Byte :=
  [status ++ low, 0#1 ++ d1, 0#1 ++ d2]

/-- The three-byte record of an event instruction; a host command has no bytes (30 R107, R109). -/
def encode : Instr → Option (List Byte)
  | .noteOff ch n vel => some (encodeRecord 0x8 ch n vel)
  | .noteOnV0 ch n => some (encodeRecord 0x9 ch n 0)
  | .noteOn ch n vel => some (encodeRecord 0x9 ch n vel)
  | .polyPressure ch d1 d2 => some (encodeRecord 0xA ch d1 d2)
  | .ccModwheel ch val => some (encodeRecord 0xB ch 0x01 val)
  | .ccSustain ch val => some (encodeRecord 0xB ch 0x40 val)
  | .ccAllNotesOff ch c val => some (encodeRecord 0xB ch c val)
  | .ccOther ch c val => some (encodeRecord 0xB ch c val)
  | .programChange ch prog d2 => some (encodeRecord 0xC ch prog d2)
  | .channelPressure ch d1 d2 => some (encodeRecord 0xD ch d1 d2)
  | .pitchBend ch bend => some (encodeRecord 0xE ch (bend.extractLsb' 0 7) (bend.extractLsb' 7 7))
  | .system low d1 d2 => some (encodeRecord 0xF low d1 d2)
  | .dataFirst d0 d1 d2 => some (encodeRecord (0#1 ++ d0.extractLsb' 4 3) (d0.extractLsb' 0 4) d1 d2)
  | .allocate _ _ => none
  | .deallocate => none
  | .reset => none
  | .processBlock _ _ _ _ => none

/-- The command of a host instruction; an event record is no command (30 R109). -/
def encodeCommand : Instr → Option HostCommand
  | .noteOff _ _ _ => none
  | .noteOnV0 _ _ => none
  | .noteOn _ _ _ => none
  | .polyPressure _ _ _ => none
  | .ccModwheel _ _ => none
  | .ccSustain _ _ => none
  | .ccAllNotesOff _ _ _ => none
  | .ccOther _ _ _ => none
  | .programChange _ _ _ => none
  | .channelPressure _ _ _ => none
  | .pitchBend _ _ => none
  | .system _ _ _ => none
  | .dataFirst _ _ _ => none
  | .allocate sampleRate blockSize => some (.allocate sampleRate blockSize)
  | .deallocate => some .deallocate
  | .reset => some .reset
  | .processBlock snapshot events frames channels => some (.processBlock snapshot events frames channels)

/-- The record whose word, numbered as the opcode table numbers it (byte 0 in bits 23:16), is the low `nbits`
bits of `w`; the bits above are 0. -/
def tableRecord (nbits w : Nat) : List Byte :=
  let v := w % 2 ^ nbits
  [BitVec.ofNat 8 (v / 2 ^ 16), BitVec.ofNat 8 (v / 2 ^ 8), BitVec.ofNat 8 v]

/-- What the decoder reads from a record given as a word of the opcode table. -/
def decodeTableWord (nbits w : Nat) : Option Instr :=
  match decode (tableRecord nbits w) with
  | .ok i => some i
  | .error _ => none

end Sys2Proof
end

