-- ==== Sys2Proof/Config.lean ====
section
/-!
DEFINITION. What the spec leaves to the configuration (00_scope.md R5, R10; 92_eei_decisions.md D3, D4, D37, D53).
Every constant here has no body: no proof can see its value, so a claim holds for every value.
The laws a model may assume (00 R10), and nothing more, are built into `Config.exp`, `Config.pow` and `Config.sin`.
-/

namespace Sys2Proof

/-- The byte orders of an output sample in host memory (20 R84). -/
inductive Endian where
  | little
  | big
  deriving DecidableEq, Repr, Inhabited

/-- The sign (bit 22) and the payload (bits 21 to 0) of the quiet NaN that the operation with this key
returns: a free value for each operation (00 R14 (c); 93 I4). FREE VALUE, log 7. -/
opaque Config.nanDraw : Key → BitVec 23

/-- The parameter `Sin` away from ±0 (00 R10; 92 D3). FREE VALUE, log 8. -/
opaque Config.sinRaw : F32 → F32

/-- The parameter `Cos` (00 R10; 92 D3). FREE VALUE, log 8. -/
opaque Config.cos : F32 → F32

/-- The parameter `Tan` (00 R10; 92 D3). FREE VALUE, log 8. -/
opaque Config.tan : F32 → F32

/-- The parameter `Exp` away from ±0 (00 R10; 92 D3). FREE VALUE, log 8. -/
opaque Config.expRaw : F32 → F32

/-- The parameter `Pow` away from exponent ±0 (00 R10; 92 D3). FREE VALUE, log 8. -/
opaque Config.powRaw : F32 → F32 → F32

/-- The parameter `FTZ`: whether subnormal inputs and results of an arithmetic operation become zeros
(92 D4). FREE VALUE, log 9. -/
opaque Config.ftz : Bool

/-- The parameter `OUT_ENDIAN` (20 R84; 92 D37). FREE VALUE, log 10. -/
opaque Config.outEndian : Endian

/-- Is the value +0 or -0? -/
def Config.isZero (x : F32) : Bool := x.toNat % 2 ^ 31 == 0

/-- `Sin`, with the law `Sin(±0) = ±0` (00 R10). -/
def Config.sin (x : F32) : F32 := if Config.isZero x then x else Config.sinRaw x

/-- `Exp`, with the law `Exp(+0) = Exp(-0) = 1.0` (00 R10). -/
def Config.exp (x : F32) : F32 := if Config.isZero x then 0x3F800000#32 else Config.expRaw x

/-- `Pow(b, e)`, with the law `Pow(b, ±0) = 1.0` for every `b` (00 R10). -/
def Config.pow (b e : F32) : F32 := if Config.isZero e then 0x3F800000#32 else Config.powRaw b e

end Sys2Proof
end

