-- ==== Sys2Proof/Machine/Float.lean ====
section
/-!
DEFINITION. Binary32 arithmetic, round to nearest even, one rounding for each operator (00_scope.md R8, R14;
92_eei_decisions.md D2, D4, D53). A finite value is an integer number of units of 2^-149; each operation computes
exactly in such units and rounds once. A NaN result is a draw keyed by the operation's `Key` (log 7).
-/

namespace Sys2Proof.Machine

/-- The sign bit. -/
def fsign (x : F32) : Bool := x.msb

/-- The bits below the sign, which order the magnitudes. -/
def fmag (x : F32) : Nat := x.toNat % 2 ^ 31

/-- NaN: all exponent bits set and a fraction. -/
def fisNaN (x : F32) : Bool := decide (0x7F800000 < fmag x)

/-- Plus or minus infinity. -/
def fisInf (x : F32) : Bool := fmag x == 0x7F800000

/-- Neither infinite nor NaN. -/
def fisFinite (x : F32) : Bool := decide (fmag x < 0x7F800000)

/-- +0 or -0. -/
def fisZero (x : F32) : Bool := fmag x == 0

/-- Nonzero with an exponent field of 0. -/
def fisSubnormal (x : F32) : Bool := decide (0 < fmag x) && decide (fmag x < 2 ^ 23)

/-- The value with this sign and these bits below it. -/
def fmk (neg : Bool) (mag : Nat) : F32 := BitVec.ofNat 32 (if neg then 2 ^ 31 + mag else mag)

/-- The infinity of a sign. -/
def finf (neg : Bool) : F32 := fmk neg 0x7F800000

/-- The zero of a sign. -/
def fzero (neg : Bool) : F32 := fmk neg 0

/-- The quiet NaN drawn for an operation: its sign and payload are free (00 R14 (c); log 7). -/
def fnan (k : Key) : F32 :=
  let d := Config.nanDraw k
  d.extractLsb' 22 1 ++ 0x1FF#9 ++ d.extractLsb' 0 22

/-- The magnitude of a finite value in units of 2^-149. -/
def fixedMag (x : F32) : Nat :=
  let e := fmag x / 2 ^ 23
  let m := fmag x % 2 ^ 23
  if e = 0 then m else (m + 2 ^ 23) <<< (e - 1)

/-- A finite value in units of 2^-149. -/
def fixedVal (x : F32) : Int := if fsign x then -(fixedMag x : Int) else (fixedMag x : Int)

/-- `n / 2^q` rounded to the nearest integer, ties to even. -/
def roundShift (n q : Nat) : Nat :=
  let h := n >>> q
  let rem := n % 2 ^ q
  if 2 ^ q < 2 * rem ∨ (2 ^ q = 2 * rem ∧ h % 2 = 1) then h + 1 else h

/-- The magnitude bits of `n * 2^-(149 + k)` rounded to binary32, overflow going to infinity. -/
def roundMag (n k : Nat) : Nat :=
  let q := max (n.log2 - 23) k
  min (((q - k) <<< 23) + roundShift n q) 0x7F800000

/-- Flushing to zero: a subnormal value becomes the zero of its sign when `FTZ` says so (92 D4; log 9). -/
def fflush (x : F32) : F32 :=
  if fisSubnormal x then (if Config.ftz then fzero (fsign x) else x) else x

/-- `-x` flips the sign bit (00 R8). -/
def fneg (x : F32) : F32 := x ^^^ 0x80000000#32

/-- `|x|` clears the sign bit (00 R8). -/
def fabs (x : F32) : F32 := x &&& 0x7FFFFFFF#32

/-- `x + y` on finite values: exact zero sums are +0 unless both are negative zeros. -/
def faddFinite (x y : F32) : F32 :=
  let z := fixedVal x + fixedVal y
  if z = 0 then fzero (fsign x && fsign y) else fflush (fmk (decide (z < 0)) (roundMag z.natAbs 0))

/-- `x + y` (00 R8). -/
def fadd (k : Key) (x y : F32) : F32 :=
  let x := fflush x
  let y := fflush y
  if fisNaN x || fisNaN y then fnan k
  else if fisInf x then (if fisInf y && (fsign x != fsign y) then fnan k else x)
  else if fisInf y then y
  else faddFinite x y

/-- `x - y` (00 R8). -/
def fsub (k : Key) (x y : F32) : F32 := fadd k x (fneg y)

/-- `x * y` (00 R8). -/
def fmul (k : Key) (x y : F32) : F32 :=
  let x := fflush x
  let y := fflush y
  let neg := fsign x != fsign y
  if fisNaN x || fisNaN y then fnan k
  else if fisInf x || fisInf y then (if fisZero x || fisZero y then fnan k else finf neg)
  else fflush (fmk neg (roundMag (fixedMag x * fixedMag y) 149))

/-- The magnitude of `a / b` rounded, for magnitudes in units of 2^-149 with `b > 0`: the quotient to 151 binary
places and one more bit that says whether anything is left. -/
def divMag (a b : Nat) : Nat :=
  let n := a <<< 151
  roundMag (2 * (n / b) + (if n % b = 0 then 0 else 1)) 3

/-- `x / y` (00 R8). -/
def fdiv (k : Key) (x y : F32) : F32 :=
  let x := fflush x
  let y := fflush y
  let neg := fsign x != fsign y
  if fisNaN x || fisNaN y then fnan k
  else if fisInf x then (if fisInf y then fnan k else finf neg)
  else if fisInf y then fzero neg
  else if fisZero y then (if fisZero x then fnan k else finf neg)
  else fflush (fmk neg (divMag (fixedMag x) (fixedMag y)))

/-- A non-NaN value's place in the order of values; both zeros are 0. -/
def forder (x : F32) : Int := if fsign x then -(fmag x : Int) else (fmag x : Int)

/-- `x < y`, false when either side is NaN (00 R8). -/
def flt (x y : F32) : Bool := !fisNaN x && !fisNaN y && decide (forder x < forder y)

/-- `x <= y`, false when either side is NaN (00 R8). -/
def fle (x y : F32) : Bool := !fisNaN x && !fisNaN y && decide (forder x ≤ forder y)

/-- `x == y`, false when either side is NaN (00 R8). -/
def feq (x y : F32) : Bool := !fisNaN x && !fisNaN y && decide (forder x = forder y)

/-- `max(x, lo) = (x < lo) ? lo : x` (00 R8). -/
def fmax (x lo : F32) : F32 := if flt x lo then lo else x

/-- `min(y, hi) = (hi < y) ? hi : y` (00 R8). -/
def fmin (y hi : F32) : F32 := if flt hi y then hi else y

/-- `clamp(x, lo, hi) = min(max(x, lo), hi)` (00 R8). -/
def fclamp (x lo hi : F32) : F32 := fmin (fmax x lo) hi

/-- `float(i)`: the nearest binary32 of an integer, exact below 2^24 (00 R8, R13). -/
def fofInt (z : Int) : F32 := fmk (decide (z < 0)) (roundMag (z.natAbs <<< 149) 0)

/-- `Floor(x)`, exact; a zero result has the sign of `x` (00 R10). -/
def ffloor (k : Key) (x : F32) : F32 :=
  if fisNaN x then fnan k
  else if fisInf x then x
  else
    let z := fixedVal x / (2 ^ 149 : Int)
    if z = 0 then fzero (fsign x) else fofInt z

/-- A binary64 value, by its bits, rounded to binary32 (00 R14 (f); log 26). -/
def fofDouble (k : Key) (x : BitVec 64) : F32 :=
  let neg := x.msb
  let e := x.toNat % 2 ^ 63 / 2 ^ 52
  let m := x.toNat % 2 ^ 52
  if e = 2047 then (if m = 0 then finf neg else fnan k)
  else fmk neg (roundMag (if e = 0 then m else (m + 2 ^ 52) <<< (e - 1)) 925)

/-- `f32(x)` of the sample-rate argument (47 R330). -/
def fofNumber (k : Key) : Number → F32
  | .f32 x => x
  | .f64 x => fofDouble k x

/-- The binary64 value nearest 1e-9 (bits 0x3E112E0BE826D695) in units of 2^-149: its 53-bit significand times
2^-82 (00 R9 `KERNEL_EPS`). -/
def kernelEpsUnits : Nat := 0x112E0BE826D695 <<< 67

/-- `binary64(x) > KERNEL_EPS`: the binary32 value is widened exactly (40 R136; 92 D8). -/
def fexceedsKernelEps (x : F32) : Bool :=
  !fisNaN x && !fsign x && (fisInf x || decide (kernelEpsUnits < fixedMag x))

end Sys2Proof.Machine
end

