-- ==== Sys2Proof/Machine/Operands.lean ====
section
/-!
DEFINITION. The literals of the rules as binary32 bits (00_scope.md R9) and the operand values of an event record
(30_encoding.md R106).
-/

namespace Sys2Proof.Machine

/-! ## Literals of 00 R9 -/

def fSilence : F32 := 0x38D1B717#32
def fAnalog : F32 := 0x3B03126F#32
def fSemi : F32 := 0x3D6C9820#32
def fLeak : F32 := 0x3F7F3B64#32
def fFloor : F32 := 0x40C00000#32
def fAttackTarget : F32 := 0x40000000#32
def fHandoff : F32 := 0x40400000#32
def fPi : F32 := 0x40490FDB#32
def fPiOver4 : F32 := 0x3F490FDB#32
def fTwoPi : F32 := 0x40C90FDB#32
def fBendK : F32 := 0xB76C97A1#32
def fModwK : F32 := 0x36A7C5AC#32
def fVelK : F32 := 0x3B83126F#32
def fSemiRatio : F32 := 0x3F879C7D#32
def fZipK : F32 := 0x3BA3D70A#32

/-! ## The other literals that stand in rules, each exact in binary32 -/

def f0 : F32 := 0x00000000#32
def fHalf : F32 := 0x3F000000#32
def f1 : F32 := 0x3F800000#32
def fNeg1 : F32 := 0xBF800000#32
def f2 : F32 := 0x40000000#32
def f8 : F32 := 0x41000000#32
def f24 : F32 := 0x41C00000#32
def f30 : F32 := 0x41F00000#32
def f60 : F32 := 0x42700000#32
def f100 : F32 := 0x42C80000#32
def f20000 : F32 := 0x469C4000#32
def fTwo24 : F32 := 0x4B800000#32

/-! ## Operand values of 30 R106 -/

/-- The number of a masked data byte, 0 to 127: a note, velocity, controller value or program number. -/
def dataValue (d : BitVec 7) : Int := d.toNat

/-- The pitch-bend value, 0 to 16383. -/
def bendValue (bend : BitVec 14) : Int := bend.toNat

end Sys2Proof.Machine
end

