-- ==== Sys2Proof/Machine/State.lean ====
section
/-!
DEFINITION. The state of the core as plain data: the voice file, the engine registers, the control registers (the
snapshot), the scheduler registers of a block in progress, the output buffers, and the model's own bookkeeping.
Rules: 10_state.md R30 to R48 and R60 to R62; 60_exceptions.md R352, R353.
-/

namespace Sys2Proof.Machine

/-- `MAX_VOICES` (00 R5). -/
abbrev maxVoices : Nat := 8

/-- An oscillator (10 R34). The set-bits say which fields have been written since construction; one that has not is
UNSET (10 R60; log 4). `cycleSet` stands for `phase`, `inc`, `sin0`, `sin1`, `dsin` and `dc` together (log 6). -/
structure Oscillator where
  period      : F32
  amplitude   : F32
  modulation  : F32
  phase       : F32
  phaseMax    : F32
  inc         : F32
  sin0        : F32
  sin1        : F32
  dsin        : F32
  dc          : F32
  cycleSet    : Bool
  phaseMaxSet : Bool
  deriving DecidableEq, Repr, Inhabited

/-- An envelope (10 R35). The set-bits say which of `level`, `target` and `multiplier` have been written since
construction (10 R60; log 4); the coefficients have construction values. -/
structure Envelope where
  level             : F32
  attackMultiplier  : F32
  decayMultiplier   : F32
  sustainLevel      : F32
  releaseMultiplier : F32
  multiplier        : F32
  target            : F32
  levelSet          : Bool
  targetSet         : Bool
  multiplierSet     : Bool
  deriving DecidableEq, Repr, Inhabited

/-- A filter (10 R36), in use iff the filter is present. `coeffsSet` says that `g`, `k`, `a1`, `a2` and `a3` have been
written since construction, `integratorsSet` that `ic1eq` and `ic2eq` have (10 R60; logs 4, 6). -/
structure Filter where
  sampleRate     : F32
  g              : F32
  k              : F32
  a1             : F32
  a2             : F32
  a3             : F32
  ic1eq          : F32
  ic2eq          : F32
  coeffsSet      : Bool
  integratorsSet : Bool
  deriving DecidableEq, Repr, Inhabited

/-- Which of a voice's own registers have been written since construction (10 R60, R61; log 4). Reading one that has
not is `F_UNSET_READ` (60 R352). `gains` stands for `panLeft` and `panRight` together (log 6). -/
structure Written where
  note           : Bool
  panning        : Bool
  targetPanning  : Bool
  gains          : Bool
  saw            : Bool
  period         : Bool
  target         : Bool
  glideRate      : Bool
  cutoff         : Bool
  filterMod      : Bool
  filterQ        : Bool
  pitchBend      : Bool
  filterEnvDepth : Bool
  deriving DecidableEq, Repr, Inhabited

/-- A voice (10 R30). `note` is 0 for FREE, -1 for SUSTAINED and 1 to 127 for a note (R31). -/
structure Voice where
  note           : Int
  period         : F32
  target         : F32
  glideRate      : F32
  panning        : F32
  targetPanning  : F32
  panLeft        : F32
  panRight       : F32
  saw            : F32
  osc1           : Oscillator
  osc2           : Oscillator
  env            : Envelope
  filterEnv      : Envelope
  filter         : Filter
  cutoff         : F32
  filterMod      : F32
  filterQ        : F32
  pitchBend      : F32
  filterEnvDepth : F32
  written        : Written
  deriving DecidableEq, Repr, Inhabited

/-- The fixed array `voices[0..7]` (10 R30). -/
structure VoiceFile where
  v0 : Voice
  v1 : Voice
  v2 : Voice
  v3 : Voice
  v4 : Voice
  v5 : Voice
  v6 : Voice
  v7 : Voice
  deriving DecidableEq, Repr, Inhabited

/-- Which engine registers that are UNSET at construction have been written since (10 R37, R60; logs 4, 6). -/
structure EngineWritten where
  noiseSeed           : Bool
  pitchBend           : Bool
  sustainPedalPressed : Bool
  modWheel            : Bool
  lfo                 : Bool
  lfoStep             : Bool
  lastNote            : Bool
  filterZip           : Bool
  vibratoMod          : Bool
  pwm                 : Bool
  deriving DecidableEq, Repr, Inhabited

/-- The life states (10 R37; 47 R330 to R332). -/
inductive Lifecycle where
  | unallocated
  | allocated
  | ready
  deriving DecidableEq, Repr, Inhabited

/-- The fault codes of 60 R352, held in the register `fault`. -/
inductive FaultCode where
  /-- `F_NOT_READY`: `PROCESS_BLOCK` while the lifecycle is not READY. -/
  | notReady
  /-- `F_UNSET_READ`: a rule reads a register that holds no value. -/
  | unsetRead
  deriving DecidableEq, Repr, Inhabited

/-- The refusal reasons of 60 R353, returned to the host by a command that changes nothing. -/
inductive RefuseReason where
  | paramRange
  | channels
  | eventEmpty
  | eventRange
  | eventOrder
  | allocArgs
  deriving DecidableEq, Repr, Inhabited

/-- What the last command returned to the host: nothing yet, completion, or a refusal with its reason
(60 R353; the model's own field, log 2). -/
inductive Reply where
  | pending
  | done
  | refused (reason : RefuseReason)
  deriving DecidableEq, Repr, Inhabited

/-- An outbound message of the core (44 R245). -/
inductive Notification where
  | programChange (prog : BitVec 7)
  deriving DecidableEq, Repr, Inhabited

/-- The configuration parameters with defaults, `FILTER_PRESENT` and `LFO_MAX` (00 R5); no step writes them
(log 11). -/
structure Params where
  filterPresent : Bool
  lfoMax        : Nat
  deriving DecidableEq, Repr, Inhabited

/-- The scheduler registers and operands of the block in progress (10 R38; 47 R320). -/
structure Block where
  events   : List Event
  frames   : Nat
  channels : Nat
  cursor   : Nat
  evIndex  : Nat
  deriving DecidableEq, Repr, Inhabited

/-- The output elements written by the last accepted block, channel 0 and channel 1, in index order
(20 R82; log 15). -/
structure OutBuffers where
  ch0 : List F32
  ch1 : List F32
  deriving DecidableEq, Repr, Inhabited

/-- The state of the machine. -/
structure State where
  params              : Params
  voices              : VoiceFile
  sampleRate          : F32
  blockSize           : Int
  lifecycle           : Lifecycle
  fault               : Option FaultCode
  noiseSeed           : BitVec 32
  pitchBend           : F32
  sustainPedalPressed : Bool
  modWheel            : F32
  lfo                 : F32
  lfoStep             : Int
  lastNote            : Int
  filterZip           : F32
  vibratoMod          : F32
  pwm                 : F32
  written             : EngineWritten
  notifications       : List Notification
  snapshot            : Snapshot
  block               : Option Block
  out                 : OutBuffers
  commands            : List HostCommand
  reply               : Reply
  draws               : Nat
  deriving DecidableEq, Repr, Inhabited

/-- Why a step is not taken. -/
inductive Fault where
  /-- The machine is in the sticky fault state and has no further step (60 R352). Raised by `step` and by the
  four host commands. Safe: the spec gives no step. -/
  | stuck (code : FaultCode)
  /-- The doubling loop of `CALC_PERIOD` never ends (45 R260; 60 R365). Raised by the note events that start or
  retune a voice. Safe: the spec gives no next state. -/
  | hang
  deriving DecidableEq, Repr, Inhabited

/-- Why an instruction has no meaning in the model. The spec's own refusals (60 R353) are not these: they are
next states with a reply. -/
inductive Refusal where
  /-- Raised by a rejected arm of `exec`; no arm is rejected now. Safe. -/
  | notModelled (mnemonic : String)
  deriving DecidableEq, Repr, Inhabited

/-- An oscillator after construction (10 R60: 0.0, 1.0, 1.0, and the rest UNSET). -/
def Oscillator.constructed : Oscillator where
  period      := 0x00000000#32
  amplitude   := 0x3F800000#32
  modulation  := 0x3F800000#32
  phase       := 0x00000000#32
  phaseMax    := 0x00000000#32
  inc         := 0x00000000#32
  sin0        := 0x00000000#32
  sin1        := 0x00000000#32
  dsin        := 0x00000000#32
  dc          := 0x00000000#32
  cycleSet    := false
  phaseMaxSet := false

/-- An oscillator after construction and reset (40 R135); `phaseMax` is still UNSET. -/
def Oscillator.initial : Oscillator := { Oscillator.constructed with cycleSet := true }

/-- An envelope after construction (10 R60: coefficients 0.0, and the rest UNSET). -/
def Envelope.constructed : Envelope where
  level             := 0x00000000#32
  attackMultiplier  := 0x00000000#32
  decayMultiplier   := 0x00000000#32
  sustainLevel      := 0x00000000#32
  releaseMultiplier := 0x00000000#32
  multiplier        := 0x00000000#32
  target            := 0x00000000#32
  levelSet          := false
  targetSet         := false
  multiplierSet     := false

/-- An envelope after construction and reset (41 R161). -/
def Envelope.initial : Envelope :=
  { Envelope.constructed with levelSet := true, targetSet := true, multiplierSet := true }

/-- A filter after construction (10 R60: 44100.0, and the rest UNSET). -/
def Filter.constructed : Filter where
  sampleRate     := 0x472C4400#32
  g              := 0x00000000#32
  k              := 0x00000000#32
  a1             := 0x00000000#32
  a2             := 0x00000000#32
  a3             := 0x00000000#32
  ic1eq          := 0x00000000#32
  ic2eq          := 0x00000000#32
  coeffsSet      := false
  integratorsSet := false

/-- A filter after construction and reset (42 R181). -/
def Filter.initial : Filter := { Filter.constructed with coeffsSet := true, integratorsSet := true }

/-- No register of the voice written yet (10 R60). -/
def Written.none : Written where
  note           := false
  panning        := false
  targetPanning  := false
  gains          := false
  saw            := false
  period         := false
  target         := false
  glideRate      := false
  cutoff         := false
  filterMod      := false
  filterQ        := false
  pitchBend      := false
  filterEnvDepth := false

/-- The registers of a voice that `VOICE.RESET` writes (43 R201). -/
def Written.byReset : Written :=
  { Written.none with note := true, panning := true, targetPanning := true, gains := true, saw := true }

/-- No engine register written yet (10 R60). -/
def EngineWritten.none : EngineWritten where
  noiseSeed           := false
  pitchBend           := false
  sustainPedalPressed := false
  modWheel            := false
  lfo                 := false
  lfoStep             := false
  lastNote            := false
  filterZip           := false
  vibratoMod          := false
  pwm                 := false

/-- Every engine register written: `RESET` writes them all (47 R332). -/
def EngineWritten.all : EngineWritten where
  noiseSeed           := true
  pitchBend           := true
  sustainPedalPressed := true
  modWheel            := true
  lfo                 := true
  lfoStep             := true
  lastNote            := true
  filterZip           := true
  vibratoMod          := true
  pwm                 := true

/-- A voice after construction: every register of its own is UNSET (10 R60). -/
def Voice.constructed : Voice where
  note           := 0
  period         := 0x00000000#32
  target         := 0x00000000#32
  glideRate      := 0x00000000#32
  panning        := 0x00000000#32
  targetPanning  := 0x00000000#32
  panLeft        := 0x00000000#32
  panRight       := 0x00000000#32
  saw            := 0x00000000#32
  osc1           := Oscillator.constructed
  osc2           := Oscillator.constructed
  env            := Envelope.constructed
  filterEnv      := Envelope.constructed
  filter         := Filter.constructed
  cutoff         := 0x00000000#32
  filterMod      := 0x00000000#32
  filterQ        := 0x00000000#32
  pitchBend      := 0x00000000#32
  filterEnvDepth := 0x00000000#32
  written        := Written.none

/-- A voice after construction and reset, with the pan gain `gain`: FREE, silent, centred (10 R61). -/
def Voice.initial (gain : F32) : Voice :=
  { Voice.constructed with
    panLeft := gain, panRight := gain, osc1 := Oscillator.initial, osc2 := Oscillator.initial,
    env := Envelope.initial, filterEnv := Envelope.initial, filter := Filter.initial, written := Written.byReset }

/-- The voice file whose eight voices are all `v`. -/
def VoiceFile.replicate (v : Voice) : VoiceFile := ⟨v, v, v, v, v, v, v, v⟩

/-- The snapshot registers before any block: the spec gives no value (10 R62); all zero (log 5). -/
def Snapshot.unloaded : Snapshot where
  numVoices           := 0
  detune              := 0x00000000#32
  oscMix              := 0x00000000#32
  tune                := 0x00000000#32
  volumeTrim          := 0x00000000#32
  noiseMix            := 0x00000000#32
  outputLevel         := 0x00000000#32
  envAttack           := 0x00000000#32
  envDecay            := 0x00000000#32
  envSustain          := 0x00000000#32
  envRelease          := 0x00000000#32
  filterAttack        := 0x00000000#32
  filterDecay         := 0x00000000#32
  filterSustain       := 0x00000000#32
  filterRelease       := 0x00000000#32
  glideMode           := 0
  glideRate           := 0x00000000#32
  glideBend           := 0x00000000#32
  lfoInc              := 0x00000000#32
  lfoWaveform         := 0
  vibrato             := 0x00000000#32
  pwmDepth            := 0x00000000#32
  filterKeyTracking   := 0x00000000#32
  filterQ             := 0x00000000#32
  filterLFODepth      := 0x00000000#32
  filterEnvDepth      := 0x00000000#32
  velocitySensitivity := 0x00000000#32

/-- The machine right after reset: the values of 10 R61, with the construction values of 10 R60 in the registers
that reset does not write. The pan gains are `Sin(PI_OVER_4)`. Values the spec does not give: logs 3, 4, 5. -/
def State.reset : State where
  params              := { filterPresent := true, lfoMax := 32 }
  voices              := VoiceFile.replicate (Voice.initial (Config.sin 0x3F490FDB#32))
  sampleRate          := 0x472C4400#32
  blockSize           := 0
  lifecycle           := .ready
  fault               := none
  noiseSeed           := 22222
  pitchBend           := 0x3F800000#32
  sustainPedalPressed := false
  modWheel            := 0x00000000#32
  lfo                 := 0x00000000#32
  lfoStep             := 0
  lastNote            := 0
  filterZip           := 0x00000000#32
  vibratoMod          := 0x3F800000#32
  pwm                 := 0x3F800000#32
  written             := EngineWritten.all
  notifications       := []
  snapshot            := Snapshot.unloaded
  block               := none
  out                 := { ch0 := [], ch1 := [] }
  commands            := []
  reply               := .pending
  draws               := 0

/-- The construction (power-on) state, before the first host command (10 R60; 70 R383). Every register that R60 leaves
UNSET has its set-bit clear, and a value beside it that no rule reads (log 4). -/
def State.construction : State :=
  { State.reset with
    voices      := VoiceFile.replicate Voice.constructed
    lifecycle   := .unallocated
    written     := EngineWritten.none
    noiseSeed   := 0
    pitchBend   := 0x00000000#32
    vibratoMod  := 0x00000000#32
    pwm         := 0x00000000#32 }

end Sys2Proof.Machine
end

