-- ==== Sys2Proof/Machine/Flags.lean ====
section
/-!
DEFINITION. The predicates computed from state on every read and never stored (10_state.md R39; 41_envelope.md R165,
R166; 45_allocation.md R261), the legality of a snapshot (10 R45) and of a block's operands (47 R320, R325), and the
derived views (10 R32; 41 R167; 45 R269).
-/

namespace Sys2Proof.Machine

/-- `ENV.ISACTIVE`: the level exceeds `SILENCE` (41 R165). -/
def envIsActive (e : Envelope) : Bool := flt fSilence e.level

/-- `ENV.ISINATTACK`: `target >= ATTACK_TARGET` (41 R166). -/
def envIsInAttack (e : Envelope) : Bool := fle fAttackTarget e.target

/-- `isActive(v)` (10 R39). -/
def voiceIsActive (v : Voice) : Bool := envIsActive v.env

/-- A note is held on the voice: `note > 0`, neither FREE nor SUSTAINED (44 R232). -/
def voiceIsHeld (v : Voice) : Bool := decide (0 < v.note)

/-- The voices in index order. -/
def voiceList (vs : VoiceFile) : List Voice := [vs.v0, vs.v1, vs.v2, vs.v3, vs.v4, vs.v5, vs.v6, vs.v7]

/-- `IS_PLAYING_LEGATO_STYLE`: some voice holds a note (45 R261). -/
def isPlayingLegatoStyle (vs : VoiceFile) : Bool := (voiceList vs).any voiceIsHeld

/-- Mono mode: `numVoices == 1` (00 R12). -/
def isMono (p : Snapshot) : Bool := p.numVoices == 1

/-! ## Legality of operands -/

/-- Finite and greater than 0. -/
def finitePositive (x : F32) : Bool := fisFinite x && flt f0 x

/-- In `[0, 1)`. -/
def inUnitOpen (x : F32) : Bool := fle f0 x && flt x f1

/-- In `[0, 1]`. -/
def inUnitClosed (x : F32) : Bool := fle f0 x && fle x f1

/-- The filter's fields of 10 R45; ignored when the filter is absent (log 28). -/
def filterFieldsLegal (p : Snapshot) : Bool :=
  inUnitOpen p.filterAttack && inUnitOpen p.filterDecay && inUnitOpen p.filterRelease &&
  inUnitClosed p.filterSustain && finitePositive p.filterQ &&
  fisFinite p.filterKeyTracking && fisFinite p.filterLFODepth && fisFinite p.filterEnvDepth &&
  fisFinite p.velocitySensitivity

/-- The legal snapshots (10 R45). -/
def snapshotLegal (filterPresent : Bool) (p : Snapshot) : Bool :=
  decide (1 ≤ p.numVoices ∧ p.numVoices ≤ 8) &&
  decide (0 ≤ p.glideMode ∧ p.glideMode ≤ 2) &&
  decide (0 ≤ p.lfoWaveform ∧ p.lfoWaveform ≤ 3) &&
  finitePositive p.tune && finitePositive p.detune &&
  inUnitOpen p.envAttack && inUnitOpen p.envDecay && inUnitOpen p.envRelease &&
  inUnitClosed p.envSustain && inUnitClosed p.glideRate &&
  fle f0 p.lfoInc && flt p.lfoInc fTwoPi &&
  fisFinite p.oscMix && fisFinite p.volumeTrim && fisFinite p.noiseMix && fisFinite p.outputLevel &&
  fisFinite p.glideBend && fisFinite p.vibrato && fisFinite p.pwmDepth &&
  (!filterPresent || filterFieldsLegal p)

/-- The channel counts a block may have (47 R320). -/
def channelsLegal (channels : Nat) : Bool := channels == 1 || channels == 2

/-- No offset is smaller than the one before it (47 R325). -/
def eventsOrdered : List Event → Bool
  | [] => true
  | [_] => true
  | a :: b :: rest => decide (a.offset ≤ b.offset) && eventsOrdered (b :: rest)

/-- No record has zero bytes (47 R325). -/
def eventsNonempty (events : List Event) : Bool := events.all fun e => !e.bytes.isEmpty

/-- Every offset is in `0 .. N-1` (47 R325). -/
def eventsInRange (frames : Nat) (events : List Event) : Bool := events.all fun e => decide (e.offset < frames)

/-- The first reason to refuse an event list, in the order of 47 R325. -/
def eventsRefusal (events : List Event) (frames : Nat) : Option RefuseReason :=
  if !eventsNonempty events then some .eventEmpty
  else if !eventsInRange frames events then some .eventRange
  else if !eventsOrdered events then some .eventOrder
  else none

/-- The first reason to refuse a block, in the order of 47 R320. -/
def blockRefusal (filterPresent : Bool) (p : Snapshot) (events : List Event) (frames channels : Nat) :
    Option RefuseReason :=
  if !snapshotLegal filterPresent p then some .paramRange
  else if !channelsLegal channels then some .channels
  else eventsRefusal events frames

/-- The sample rates and block sizes that `ALLOCATE` accepts (47 R330). -/
def allocArgsLegal (sr : F32) (blockSize : Int) : Bool := finitePositive sr && decide (0 ≤ blockSize)

/-! ## Derived views -/

/-- The role of a voice (10 R32). -/
inductive VoiceTag where
  | free
  | sustained
  | sounding (n : Int)
  | queued (n : Int)
  deriving DecidableEq, Repr, Inhabited

/-- The tagged view of voice `i` (10 R32). -/
def voiceTag (p : Snapshot) (i : Fin 8) (v : Voice) : VoiceTag :=
  if v.note = 0 then .free
  else if v.note = -1 then .sustained
  else if isMono p && decide (i ≠ 0) then .queued v.note
  else .sounding v.note

/-- The phases of an envelope (41 R167). -/
inductive EnvPhase where
  | attack
  | idle
  | release
  | decaySustain
  deriving DecidableEq, Repr, Inhabited

/-- The phase view (41 R167). -/
def envPhase (e : Envelope) : EnvPhase :=
  if envIsInAttack e then .attack
  else if fle e.level fSilence then .idle
  else if feq e.target f0 && feq e.multiplier e.releaseMultiplier then .release
  else .decaySustain

/-- The held notes of mono mode, most recent first: the positive notes of slots 1 to 7 (45 R269). -/
def queueView (vs : VoiceFile) : List Int := ((voiceList vs).tail.map (·.note)).filter (decide <| 0 < ·)

end Sys2Proof.Machine
end

