-- ==== Sys2Proof/Machine/Ops.lean ====
section
/-!
DEFINITION. The named operations over the state that every meaning uses: entering the fault state and returning a
refusal (60_exceptions.md R352, R353), access to the voice file, reads of registers that may be UNSET (10_state.md
R60), notifications, output elements and the scheduler's event fetch (20_memory.md R80, R82, R84).
-/

namespace Sys2Proof.Machine

/-- The result of a meaning. -/
abbrev Result := Host.Outcome State Fault Refusal

/-- Why an operation does not complete: it read an UNSET register (60 R352) or its loop never ends (60 R365). -/
inductive Halt where
  | unset
  | hang
  deriving DecidableEq, Repr, Inhabited

/-! ## Faults and refusals -/

/-- Entering the sticky fault state (00 R10; 60 R352): the one thing written is `fault`. There is no return from
it (60 R359). -/
def enterFault (code : FaultCode) (s : State) : State := { s with fault := some code }

/-- A refused command changes no state and returns its reason (60 R353). -/
def refuse (reason : RefuseReason) (s : State) : State := { s with reply := .refused reason }

/-- A completed command's return. -/
def complete (s : State) : State := { s with reply := .done }

/-- The outcome of an operation begun in `s`: an UNSET read enters the fault state, with nothing of the
operation kept (log 12); a loop that never ends has no next state. -/
def finish (s : State) : Except Halt State → Result
  | .ok t => .next t
  | .error .unset => .next (enterFault .unsetRead s)
  | .error .hang => .fault .hang

/-- "if fault != none then stuck" (47 R320, R330 to R332). -/
def unlessStuck (s : State) (go : Result) : Result :=
  match s.fault with
  | some code => .fault (.stuck code)
  | none => go

/-! ## The voice file -/

/-- `voices[i]`. -/
def getVoice (vs : VoiceFile) (i : Fin 8) : Voice :=
  match i with
  | 0 => vs.v0
  | 1 => vs.v1
  | 2 => vs.v2
  | 3 => vs.v3
  | 4 => vs.v4
  | 5 => vs.v5
  | 6 => vs.v6
  | 7 => vs.v7

/-- `voices[i] <- v`. -/
def setVoice (vs : VoiceFile) (i : Fin 8) (v : Voice) : VoiceFile :=
  match i with
  | 0 => { vs with v0 := v }
  | 1 => { vs with v1 := v }
  | 2 => { vs with v2 := v }
  | 3 => { vs with v3 := v }
  | 4 => { vs with v4 := v }
  | 5 => { vs with v5 := v }
  | 6 => { vs with v6 := v }
  | 7 => { vs with v7 := v }

/-- `for i = 0 .. 7 do voices[i] <- f i voices[i]`, where no voice's update reads another voice. -/
def mapVoices (f : Fin 8 → Voice → Voice) (vs : VoiceFile) : VoiceFile where
  v0 := f 0 vs.v0
  v1 := f 1 vs.v1
  v2 := f 2 vs.v2
  v3 := f 3 vs.v3
  v4 := f 4 vs.v4
  v5 := f 5 vs.v5
  v6 := f 6 vs.v6
  v7 := f 7 vs.v7

/-- `for i = 0 .. 7`, upward, with an accumulator beside the voices' updates. -/
def foldVoices {α : Type} (f : Fin 8 → α → Voice → Except Halt (α × Voice)) (a : α) (vs : VoiceFile) :
    Except Halt (α × VoiceFile) := do
  let (a, v0) ← f 0 a vs.v0
  let (a, v1) ← f 1 a vs.v1
  let (a, v2) ← f 2 a vs.v2
  let (a, v3) ← f 3 a vs.v3
  let (a, v4) ← f 4 a vs.v4
  let (a, v5) ← f 5 a vs.v5
  let (a, v6) ← f 6 a vs.v6
  let (a, v7) ← f 7 a vs.v7
  return (a, ⟨v0, v1, v2, v3, v4, v5, v6, v7⟩)

/-- `for i = 0 .. 7 do` an update that may halt. -/
def updateVoices (f : Fin 8 → Voice → Except Halt Voice) (vs : VoiceFile) : Except Halt VoiceFile := do
  let (_, vs) ← foldVoices (fun i _ v => do return ((), ← f i v)) () vs
  return vs

/-! ## Registers that may be UNSET: a read of one that holds no value halts (10 R60) -/

/-- A rule reads registers that hold a value iff `isSet` (60 R352). -/
def need (isSet : Bool) : Except Halt Unit := if isSet then .ok () else .error .unset

/-- A read of a register with its set-bit. -/
def readSet (isSet : Bool) (x : F32) : Except Halt F32 := if isSet then .ok x else .error .unset

/-- The notes of all these voices hold values. -/
def notesSet (vs : List Voice) : Bool := vs.all (·.written.note)

/-- The three fields of an envelope that a step reads hold values (41 R162). -/
def envSet (e : Envelope) : Bool := e.levelSet && e.targetSet && e.multiplierSet

/-- The coefficients and integrators of a filter hold values (42 R183). -/
def filterSet (f : Filter) : Bool := f.coeffsSet && f.integratorsSet

/-- `isActive(v)` as a rule reads it (10 R39; 41 R165). -/
def readActive (v : Voice) : Except Halt Bool := do
  need v.env.levelSet
  return voiceIsActive v

def readPhaseMax (o : Oscillator) : Except Halt F32 := readSet o.phaseMaxSet o.phaseMax
def readSaw (v : Voice) : Except Halt F32 := readSet v.written.saw v.saw
def readPanning (v : Voice) : Except Halt F32 := readSet v.written.panning v.panning
def readTargetPanning (v : Voice) : Except Halt F32 := readSet v.written.targetPanning v.targetPanning
def readPeriod (v : Voice) : Except Halt F32 := readSet v.written.period v.period
def readTarget (v : Voice) : Except Halt F32 := readSet v.written.target v.target
def readGlideRate (v : Voice) : Except Halt F32 := readSet v.written.glideRate v.glideRate
def readCutoff (v : Voice) : Except Halt F32 := readSet v.written.cutoff v.cutoff
def readFilterMod (v : Voice) : Except Halt F32 := readSet v.written.filterMod v.filterMod
def readFilterQ (v : Voice) : Except Halt F32 := readSet v.written.filterQ v.filterQ
def readVoicePitchBend (v : Voice) : Except Halt F32 := readSet v.written.pitchBend v.pitchBend
def readFilterEnvDepth (v : Voice) : Except Halt F32 := readSet v.written.filterEnvDepth v.filterEnvDepth

/-- `voice.note <- n`. -/
def writeNote (n : Int) (v : Voice) : Voice := { v with note := n, written := { v.written with note := true } }

/-- The pan position and its target, written together (43 R201; 45 R265). -/
def writePan (x : F32) (v : Voice) : Voice :=
  { v with
    panning := x, targetPanning := x, written := { v.written with panning := true, targetPanning := true } }

def writePanning (x : F32) (v : Voice) : Voice :=
  { v with panning := x, written := { v.written with panning := true } }
def writeTargetPanning (x : F32) (v : Voice) : Voice :=
  { v with targetPanning := x, written := { v.written with targetPanning := true } }
def writeSaw (x : F32) (v : Voice) : Voice := { v with saw := x, written := { v.written with saw := true } }
def writePhaseMax (x : F32) (o : Oscillator) : Oscillator := { o with phaseMax := x, phaseMaxSet := true }
def writePeriod (x : F32) (v : Voice) : Voice :=
  { v with period := x, written := { v.written with period := true } }
def writeTarget (x : F32) (v : Voice) : Voice :=
  { v with target := x, written := { v.written with target := true } }
def writeGlideRate (x : F32) (v : Voice) : Voice :=
  { v with glideRate := x, written := { v.written with glideRate := true } }
def writeCutoff (x : F32) (v : Voice) : Voice :=
  { v with cutoff := x, written := { v.written with cutoff := true } }
def writeFilterMod (x : F32) (v : Voice) : Voice :=
  { v with filterMod := x, written := { v.written with filterMod := true } }
def writeFilterQ (x : F32) (v : Voice) : Voice :=
  { v with filterQ := x, written := { v.written with filterQ := true } }
def writeVoicePitchBend (x : F32) (v : Voice) : Voice :=
  { v with pitchBend := x, written := { v.written with pitchBend := true } }
def writeFilterEnvDepth (x : F32) (v : Voice) : Voice :=
  { v with filterEnvDepth := x, written := { v.written with filterEnvDepth := true } }

/-- `lastNote <- n`. -/
def writeLastNote (n : Int) (s : State) : State :=
  { s with lastNote := n, written := { s.written with lastNote := true } }

/-- `sustainPedalPressed <- b`. -/
def writePedal (b : Bool) (s : State) : State :=
  { s with sustainPedalPressed := b, written := { s.written with sustainPedalPressed := true } }

/-! ## Notifications and output -/

/-- `Notify(m)`: append to the block's notification list (00 R10). -/
def notify (m : Notification) (s : State) : State := { s with notifications := s.notifications ++ [m] }

/-- `Out(ch, j) <- x` for the next index `j` of a channel (20 R82): elements are written once each, in
increasing order, so a write appends. -/
def outFrame (channels : Nat) (left right mono : F32) (b : OutBuffers) : OutBuffers :=
  if channels = 2 then { ch0 := b.ch0 ++ [left], ch1 := b.ch1 ++ [right] }
  else { b with ch0 := b.ch0 ++ [mono] }

/-- The buffers before any element of a block is written. -/
def emptyBuffers : OutBuffers := { ch0 := [], ch1 := [] }

/-- The four bytes of a sample in host memory, lowest address first (20 R84). -/
def sampleBytes (order : Endian) (x : F32) : List Byte :=
  let low := [x.extractLsb' 0 8, x.extractLsb' 8 8, x.extractLsb' 16 8, x.extractLsb' 24 8]
  match order with
  | .little => low
  | .big => low.reverse

/-- A channel's elements as the host reads them in memory, in the byte order `OUT_ENDIAN` (20 R84). -/
def channelBytes (elements : List F32) : List Byte := elements.flatMap (sampleBytes Config.outEndian)

/-! ## The scheduler's registers -/

/-- `EventRead(evIndex)` (20 R80): the event to apply next, if one is left. -/
def nextEvent (b : Block) : Option Event := b.events[b.evIndex]?

/-- The first frame of the segment in progress: the offset of the event before, or 0 (47 R320, R322). -/
def segmentStart (b : Block) : Nat :=
  match b.evIndex with
  | 0 => 0
  | j + 1 =>
    match b.events[j]? with
    | some e => e.offset
    | none => 0

/-- The frame after the last one of the segment in progress: the next event's offset, or `N` (47 R320). -/
def segmentEnd (b : Block) : Nat :=
  match nextEvent b with
  | some e => e.offset
  | none => b.frames

/-- The registers at the start of an accepted block (47 R321). -/
def startBlock (events : List Event) (frames channels : Nat) : Block where
  events   := events
  frames   := frames
  channels := channels
  cursor   := 0
  evIndex  := 0

/-- `evIndex <- evIndex + 1` (47 R320). -/
def advanceEvent (b : Block) : Block := { b with evIndex := b.evIndex + 1 }

/-- `cursor` moves past one rendered frame (10 R38). -/
def advanceCursor (b : Block) : Block := { b with cursor := b.cursor + 1 }

/-- The key of the operations of the present step (log 7). -/
def stepKey (s : State) : Key := [s.draws]

/-- The next step draws its NaNs afresh (log 7). -/
def nextDraw (s : State) : State := { s with draws := s.draws + 1 }

end Sys2Proof.Machine
end

