-- ==== Sys2Proof/Machine/Envelope.lean ====
section
/-!
DEFINITION. The envelope generator (41_envelope.md R160 to R169); the predicates R165 and R166 are in Flags.lean.
-/

namespace Sys2Proof.Machine

/-- `SILENCE + SILENCE`, one binary32 addition (41 R163). -/
def twiceSilence (k : Key) : F32 := fadd k fSilence fSilence

/-- `ENV.RESET` (41 R161). -/
def envReset (e : Envelope) : Envelope :=
  { e with
    level := f0, target := f0, multiplier := f0, levelSet := true, targetSet := true, multiplierSet := true }

/-- The level after one `ENV.NEXT` (41 R162). -/
def envLevel (k : Key) (e : Envelope) : F32 :=
  fadd (2 :: k) (fmul (1 :: k) e.multiplier (fsub (0 :: k) e.level e.target)) e.target

/-- The handoff from attack to decay when `level + target` exceeds 3.0 (41 R162). -/
def envHandoff (k : Key) (e : Envelope) : Envelope :=
  if flt fHandoff (fadd k e.level e.target) then
    { e with multiplier := e.decayMultiplier, target := e.sustainLevel }
  else e

/-- The step of an envelope whose fields hold values; the returned level is the one before any handoff writes
(41 R162). -/
def envStep (k : Key) (e : Envelope) : F32 × Envelope :=
  let level := envLevel (0 :: k) e
  (level, envHandoff (1 :: k) { e with level := level })

/-- `ENV.NEXT` (41 R162). -/
def envNext (k : Key) (e : Envelope) : Except Halt (F32 × Envelope) := do
  need (envSet e)
  return envStep k e

/-- The nudge that keeps a nearly silent envelope active (41 R163; 45 R266). -/
def envNudge (k : Key) (e : Envelope) : Except Halt Envelope := do
  need e.levelSet
  return { e with level := fadd (1 :: k) e.level (twiceSilence (0 :: k)) }

/-- `ENV.ATTACK` (41 R163). -/
def envAttack (k : Key) (e : Envelope) : Except Halt Envelope := do
  let e ← envNudge k e
  return { e with
           target := fAttackTarget, multiplier := e.attackMultiplier, targetSet := true, multiplierSet := true }

/-- `ENV.RELEASE` (41 R164). -/
def envRelease (e : Envelope) : Envelope :=
  { e with target := f0, multiplier := e.releaseMultiplier, targetSet := true, multiplierSet := true }

/-- The latch of the four coefficients at note start (45 R265). -/
def envLatch (attack decay sustain release : F32) (e : Envelope) : Envelope :=
  { e with
    attackMultiplier := attack, decayMultiplier := decay, sustainLevel := sustain, releaseMultiplier := release }

end Sys2Proof.Machine
end

