-- ==== Sys2Proof/Machine/Filter.lean ====
section
/-!
DEFINITION. The resonant low-pass filter (42_filter.md R180 to R185).
-/

namespace Sys2Proof.Machine

/-- `FILTER.RESET` (42 R181). -/
def filterReset (f : Filter) : Filter :=
  { f with
    g := f0, k := f0, a1 := f0, a2 := f0, a3 := f0, ic1eq := f0, ic2eq := f0, coeffsSet := true,
    integratorsSet := true }

/-- `FILTER.UPDATE(cutoff, Q)` (42 R182). -/
def filterUpdate (key : Key) (cutoff q : F32) (f : Filter) : Filter :=
  let g := Config.tan (fdiv (1 :: key) (fmul (0 :: key) fPi cutoff) f.sampleRate)
  let k := fdiv (2 :: key) f1 q
  let a1 := fdiv (6 :: key) f1 (fadd (5 :: key) f1 (fmul (4 :: key) g (fadd (3 :: key) g k)))
  let a2 := fmul (7 :: key) g a1
  let a3 := fmul (8 :: key) g a2
  { f with g := g, k := k, a1 := a1, a2 := a2, a3 := a3, coeffsSet := true }

/-- The sample and the filter of `FILTER.RENDER(x)`, when the filter's fields hold values (42 R183). -/
def filterStep (key : Key) (x : F32) (f : Filter) : F32 × Filter :=
  let v3 := fsub (0 :: key) x f.ic2eq
  let v1 := fadd (3 :: key) (fmul (1 :: key) f.a1 f.ic1eq) (fmul (2 :: key) f.a2 v3)
  let v2 :=
    fadd (7 :: key) (fadd (5 :: key) f.ic2eq (fmul (4 :: key) f.a2 f.ic1eq)) (fmul (6 :: key) f.a3 v3)
  (v2, { f with
           ic1eq := fsub (9 :: key) (fmul (8 :: key) f2 v1) f.ic1eq,
           ic2eq := fsub (11 :: key) (fmul (10 :: key) f2 v2) f.ic2eq })

/-- `FILTER.RENDER(x)` (42 R183). -/
def filterRender (key : Key) (x : F32) (f : Filter) : Except Halt (F32 × Filter) := do
  need (filterSet f)
  return filterStep key x f

end Sys2Proof.Machine
end

