-- ==== Sys2Proof/Machine/Oscillator.lean ====
section
/-!
DEFINITION. The band-limited oscillator (40_noise_oscillator.md R134 to R139).
-/

namespace Sys2Proof.Machine

/-- `OSC.RESET` (40 R135). -/
def oscReset (o : Oscillator) : Oscillator :=
  { o with inc := f0, phase := f0, sin0 := f0, sin1 := f0, dsin := f0, dc := f0, cycleSet := true }

/-- The start of a new cycle in `OSC.NEXT`, with `phase` already advanced: the kernel value and the oscillator
(40 R136, first branch). -/
def oscCycleStart (k : Key) (o : Oscillator) : F32 × Oscillator :=
  let half := fmul (1 :: k) (fdiv (0 :: k) o.period f2) o.modulation
  let edge := fsub (4 :: k) (ffloor (3 :: k) (fadd (2 :: k) fHalf half)) fHalf
  let dc := fdiv (6 :: k) (fmul (5 :: k) fHalf o.amplitude) edge
  let phaseMax := fmul (7 :: k) edge fPi
  let inc := fdiv (8 :: k) phaseMax half
  let phase := fneg o.phase
  let sin0 := fmul (9 :: k) o.amplitude (Config.sin phase)
  let sin1 := fmul (11 :: k) o.amplitude (Config.sin (fsub (10 :: k) phase inc))
  let dsin := fmul (12 :: k) f2 (Config.cos inc)
  let out :=
    if fexceedsKernelEps (fmul (13 :: k) phase phase) then fdiv (14 :: k) sin0 phase else o.amplitude
  (out, { writePhaseMax phaseMax o with
            dc := dc, inc := inc, phase := phase, sin0 := sin0, sin1 := sin1, dsin := dsin })

/-- The mid-cycle reflection at `phaseMax` (40 R136). -/
def oscReflect (k : Key) (phaseMax : F32) (o : Oscillator) : Oscillator :=
  if flt phaseMax o.phase then
    { o with phase := fsub (1 :: k) (fadd (0 :: k) phaseMax phaseMax) o.phase, inc := fneg o.inc }
  else o

/-- A sample inside a cycle, with `phase` already advanced (40 R136, second branch). -/
def oscMidCycle (k : Key) (phaseMax : F32) (o : Oscillator) : F32 × Oscillator :=
  let o := oscReflect (0 :: k) phaseMax o
  let sinp := fsub (2 :: k) (fmul (1 :: k) o.dsin o.sin0) o.sin1
  (fdiv (3 :: k) sinp o.phase, { o with sin1 := o.sin0, sin0 := sinp })

/-- `OSC.NEXT` (40 R136): the first thing read is `phase`, and the bit that says it holds a value says so of `inc`,
`sin0`, `sin1`, `dsin` and `dc` too. -/
def oscNext (k : Key) (o : Oscillator) : Except Halt (F32 × Oscillator) := do
  need o.cycleSet
  let o := { o with phase := fadd (0 :: k) o.phase o.inc }
  if fle o.phase fPiOver4 then
    let (out, o) := oscCycleStart (1 :: k) o
    return (fsub (2 :: k) out o.dc, o)
  else
    let phaseMax ← readPhaseMax o
    let (out, o) := oscMidCycle (3 :: k) phaseMax o
    return (fsub (2 :: k) out o.dc, o)

/-- The phase and increment that `OSC.SQUAREWAVE` takes from the primary oscillator (40 R138). -/
def squareWaveStart (k : Key) (other : Oscillator) : Except Halt (F32 × F32) := do
  need other.cycleSet
  if flt f0 other.inc then
    let phaseMax ← readPhaseMax other
    return (fsub (1 :: k) (fadd (0 :: k) phaseMax phaseMax) other.phase, fneg other.inc)
  else if flt other.inc f0 then return (other.phase, other.inc)
  else return (fneg fPi, fPi)

/-- `OSC.SQUAREWAVE(other, newPeriod)` (40 R138). -/
def oscSquareWave (k : Key) (o other : Oscillator) (newPeriod : F32) : Except Halt Oscillator := do
  let (phase, inc) ← squareWaveStart (0 :: k) other
  let phase := fadd (3 :: k) phase (fdiv (2 :: k) (fmul (1 :: k) fPi newPeriod) f2)
  return writePhaseMax phase { oscReset o with phase := phase, inc := inc }

end Sys2Proof.Machine
end

