-- ==== Sys2Proof/Machine/Voice.lean ====
section
/-!
DEFINITION. The voice (43_voice.md R200 to R207): reset, the per-sample signal path, release, pan and the per-tick
update.
-/

namespace Sys2Proof.Machine

/-- `VOICE.GAINS` of a voice whose pan position holds a value: every caller has just written or read it (43 R205). -/
def voiceGains (k : Key) (v : Voice) : Voice :=
  { v with
    panLeft  := Config.sin (fmul (1 :: k) fPiOver4 (fsub (0 :: k) f1 v.panning)),
    panRight := Config.sin (fmul (3 :: k) fPiOver4 (fadd (2 :: k) f1 v.panning)),
    written  := { v.written with gains := true } }

/-- `VOICE.RESET` (43 R201). -/
def voiceReset (filterPresent : Bool) (k : Key) (v : Voice) : Voice :=
  let v := voiceGains k (writePan f0 (writeSaw f0 (writeNote 0
    { v with osc1 := oscReset v.osc1, osc2 := oscReset v.osc2, env := envReset v.env })))
  if filterPresent then { v with filter := filterReset v.filter, filterEnv := envReset v.filterEnv } else v

/-- The optional filter stage: the identity when the filter is absent (42 R184; 43 R202). -/
def voiceFilter (filterPresent : Bool) (k : Key) (x : F32) (v : Voice) : Except Halt (F32 × Voice) :=
  if filterPresent then do
    let (y, f) ← filterRender k x v.filter
    return (y, { v with filter := f })
  else .ok (x, v)

/-- `VOICE.RENDER(input)` (43 R202). -/
def voiceRender (filterPresent : Bool) (k : Key) (input : F32) (v : Voice) : Except Halt (F32 × Voice) := do
  let (s1, osc1) ← oscNext (0 :: k) v.osc1
  let (s2, osc2) ← oscNext (1 :: k) v.osc2
  let saw ← readSaw v
  let saw := fsub (4 :: k) (fadd (3 :: k) (fmul (2 :: k) saw fLeak) s1) s2
  let (out, v) ← voiceFilter filterPresent (6 :: k) (fadd (5 :: k) saw input)
    { v with osc1 := osc1, osc2 := osc2, saw := saw }
  let (e, env) ← envNext (7 :: k) v.env
  return (fmul (8 :: k) out e, { v with env := env })

/-- `VOICE.RELEASE` (43 R203). -/
def voiceRelease (filterPresent : Bool) (v : Voice) : Voice :=
  if filterPresent then { v with env := envRelease v.env, filterEnv := envRelease v.filterEnv }
  else { v with env := envRelease v.env }

/-- `PAN_OF(note)` (43 R204). -/
def panOf (k : Key) (note : Int) : F32 :=
  fclamp (fdiv (1 :: k) (fsub (0 :: k) (fofInt note) f60) f24) fNeg1 f1

/-- One glide step: `x + glideRate * (goal - x)` (43 R206). -/
def glideStep (k : Key) (rate x goal : F32) : F32 :=
  fadd (2 :: k) x (fmul (1 :: k) rate (fsub (0 :: k) goal x))

/-- The filter's part of `VOICE.UPDATELFO`: the filter envelope's step, the modulated cutoff and the new
coefficients (43 R206). -/
def voiceUpdateFilter (k : Key) (v : Voice) : Except Halt Voice := do
  let (fenv, filterEnv) ← envNext (0 :: k) v.filterEnv
  let cutoff ← readCutoff v
  let filterMod ← readFilterMod v
  let depth ← readFilterEnvDepth v
  let bend ← readVoicePitchBend v
  let q ← readFilterQ v
  let mc := fdiv (4 :: k)
    (fmul (3 :: k) cutoff (Config.exp (fadd (2 :: k) filterMod (fmul (1 :: k) depth fenv)))) bend
  return { v with
           filterEnv := filterEnv,
           filter := filterUpdate (5 :: k) (fclamp mc f30 f20000) q v.filter }

/-- `VOICE.UPDATELFO` (43 R206). -/
def voiceUpdateLfo (filterPresent : Bool) (k : Key) (v : Voice) : Except Halt Voice := do
  let period ← readPeriod v
  let target ← readTarget v
  let rate ← readGlideRate v
  let panning ← readPanning v
  let targetPanning ← readTargetPanning v
  let v := writePeriod (glideStep (0 :: k) rate period target) v
  let v := voiceGains (2 :: k) (writePanning (glideStep (1 :: k) rate panning targetPanning) v)
  if filterPresent then voiceUpdateFilter (3 :: k) v else return v

end Sys2Proof.Machine
end

