-- ==== Sys2Proof/Machine/Allocation.lean ====
section
/-!
DEFINITION. Voice allocation, the mono queue and glide (45_allocation.md R260 to R270).
-/

namespace Sys2Proof.Machine

/-! ## Pitch -/

/-- The period before doubling (45 R260). -/
def rawPeriod (k : Key) (p : Snapshot) (v : Fin 8) (note : Int) : F32 :=
  fmul (4 :: k) p.tune
    (Config.exp (fmul (3 :: k) (fneg fSemi)
      (fadd (2 :: k) (fofInt note) (fmul (1 :: k) fAnalog (fofInt v.val)))))

/-- The condition of the doubling loop: the period or its detuned partner is below 6.0 (45 R260; 90 C10). -/
def belowFloor (k : Key) (detune period : F32) : Bool :=
  flt period fFloor || flt (fmul k period detune) fFloor

/-- The doubling loop, at most `fuel` turns; a loop still running then never ends (45 R260; 60 R365; log 14). -/
def doubleToFloor (k : Key) (detune : F32) : Nat → F32 → Except Halt F32
  | 0, _ => .error .hang
  | fuel + 1, period =>
    if belowFloor (0 :: fuel :: k) detune period then
      doubleToFloor k detune fuel (fadd (1 :: fuel :: k) period period)
    else .ok period

/-- The turns after which a doubling loop that has not ended never ends: fewer than 280 doublings take the
smallest positive binary32 value to infinity (log 14). -/
def doublingFuel : Nat := 400

/-- `CALC_PERIOD(v, note)` (45 R260). -/
def calcPeriod (k : Key) (p : Snapshot) (v : Fin 8) (note : Int) : Except Halt F32 :=
  doubleToFloor (1 :: k) p.detune doublingFuel (rawPeriod (0 :: k) p v note)

/-! ## Choosing a voice -/

/-- The scan of `FIND_FREE_VOICE` over voices from index `i` on, with the best level and index so far
(45 R262). -/
def scanFreeVoice : List (Fin 8 × Voice) → F32 × Fin 8 → Fin 8
  | [], (_, v) => v
  | (i, x) :: rest, (l, v) =>
    if flt x.env.level l && !envIsInAttack x.env then scanFreeVoice rest (x.env.level, i)
    else scanFreeVoice rest (l, v)

/-- The voices with their indices. -/
def indexedVoices (vs : VoiceFile) : List (Fin 8 × Voice) :=
  [(0, vs.v0), (1, vs.v1), (2, vs.v2), (3, vs.v3), (4, vs.v4), (5, vs.v5), (6, vs.v6), (7, vs.v7)]

/-- The voices that `FIND_FREE_VOICE` scans (45 R262). -/
def scannedVoices (p : Snapshot) (vs : VoiceFile) : List (Fin 8 × Voice) := (indexedVoices vs).take p.numVoices.toNat

/-- The voice that `FIND_FREE_VOICE` returns when the levels and targets it reads hold values (45 R262). -/
def quietestVoice (p : Snapshot) (vs : VoiceFile) : Fin 8 := scanFreeVoice (scannedVoices p vs) (f100, 0)

/-- `FIND_FREE_VOICE()`: reads the level and the target of every voice below `numVoices` (45 R262). -/
def findFreeVoice (p : Snapshot) (vs : VoiceFile) : Except Halt (Fin 8) := do
  need ((scannedVoices p vs).all fun x => x.2.env.levelSet && x.2.env.targetSet)
  return quietestVoice p vs

/-! ## Starting and retuning a voice -/

/-- The glide distance of a new voice in semitones, when the registers it reads hold values (45 R264, R265). -/
def glideDistance (s : State) (note : Int) : Int :=
  if 0 < s.lastNote ∧
      (s.snapshot.glideMode = 2 ∨ (s.snapshot.glideMode = 1 ∧ isPlayingLegatoStyle s.voices = true)) then
    note - s.lastNote
  else 0

/-- The glide distance as `START_VOICE` computes it: it reads `lastNote`, and the notes of all voices when a note
came before and the mode is Legato (45 R261, R265). -/
def readGlideDistance (s : State) (note : Int) : Except Halt Int := do
  need s.written.lastNote
  if 0 < s.lastNote ∧ s.snapshot.glideMode = 1 then need (notesSet (voiceList s.voices))
  return glideDistance s note

/-- The period a new voice starts at: the target bent by the glide, at least 6.0 (45 R265). -/
def startPeriod (k : Key) (target : F32) (distance : Int) (glideBend : F32) : F32 :=
  fmax (fmul (1 :: k) target (Config.pow fSemiRatio (fsub (0 :: k) (fofInt distance) glideBend))) fFloor

/-- The velocity law (45 R265; 92 D14). -/
def velocityGain (k : Key) (vel : Int) : F32 :=
  fsub (1 :: k) (fmul (0 :: k) fVelK (fofInt ((vel + 64) * (vel + 64)))) f8

/-- The cutoff of a period before the velocity factor (45 R265, R266). -/
def periodCutoff (k : Key) (sampleRate period : F32) : F32 :=
  fdiv (1 :: k) sampleRate (fmul (0 :: k) period fPi)

/-- The velocity factor of the cutoff (45 R265, R266). -/
def velocityCutoff (k : Key) (p : Snapshot) (vel : Int) (cutoff : F32) : F32 :=
  fmul (1 :: k) cutoff (Config.exp (fmul (0 :: k) p.velocitySensitivity (fofInt (vel - 64))))

/-- The amplitudes of a started voice and, when the pulse-width mode is on, its resynchronised second oscillator
(45 R265). -/
def startOscillators (k : Key) (p : Snapshot) (period : F32) (vel : Int) (v : Voice) : Except Halt Voice := do
  let amplitude := fmul (1 :: k) p.volumeTrim (velocityGain (0 :: k) vel)
  let osc1 := { v.osc1 with amplitude := amplitude }
  let osc2 := { v.osc2 with amplitude := fmul (2 :: k) amplitude p.oscMix }
  if feq p.vibrato f0 && flt f0 p.pwmDepth then do
    let osc2 ← oscSquareWave (3 :: k) osc2 osc1 period
    return { v with osc1 := osc1, osc2 := osc2 }
  else return { v with osc1 := osc1, osc2 := osc2 }

/-- The envelopes of a started voice: coefficients latched, attack begun; the filter envelope only when the filter
is present (45 R265). -/
def startEnvelopes (filterPresent : Bool) (k : Key) (p : Snapshot) (v : Voice) : Except Halt Voice := do
  let env ← envAttack (0 :: k) (envLatch p.envAttack p.envDecay p.envSustain p.envRelease v.env)
  if filterPresent then
    let filterEnv ← envAttack (1 :: k)
      (envLatch p.filterAttack p.filterDecay p.filterSustain p.filterRelease v.filterEnv)
    return { v with env := env, filterEnv := filterEnv }
  else return { v with env := env }

/-- The voice that `START_VOICE` leaves, from its target period and its start period (45 R265). -/
def startedVoice (s : State) (k : Key) (target period : F32) (note vel : Int) (v : Voice) : Except Halt Voice := do
  let pan := panOf (0 :: k) note
  let v := writePeriod period (writeTarget target v)
  let v := voiceGains (1 :: k) (writePan pan (writeNote note v))
  let v ← startOscillators (2 :: k) s.snapshot period vel v
  let v := if s.params.filterPresent then
      writeCutoff (velocityCutoff (4 :: k) s.snapshot vel (periodCutoff (3 :: k) s.sampleRate target)) v
    else v
  startEnvelopes s.params.filterPresent (5 :: k) s.snapshot v

/-- `START_VOICE(v, note, vel)` (45 R265). -/
def startVoice (k : Key) (i : Fin 8) (note vel : Int) (s : State) : Except Halt State := do
  let target ← calcPeriod (0 :: k) s.snapshot i note
  let distance ← readGlideDistance s note
  let period := startPeriod (1 :: k) target distance s.snapshot.glideBend
  let v ← startedVoice s (2 :: k) target period note vel (getVoice s.voices i)
  return writeLastNote note { s with voices := setVoice s.voices i v }

/-- The cutoff of a retuned voice: the velocity factor only for `vel > 0` (45 R266). -/
def retunedCutoff (k : Key) (s : State) (period : F32) (vel : Int) : F32 :=
  let cutoff := periodCutoff (0 :: k) s.sampleRate period
  if 0 < vel then velocityCutoff (1 :: k) s.snapshot vel cutoff else cutoff

/-- The voice that `RESTART_MONO_VOICE` leaves, from the period of the note (45 R266). -/
def retunedVoice (s : State) (k : Key) (period : F32) (note vel : Int) (v : Voice) : Except Halt Voice := do
  let pan := panOf (0 :: k) note
  let jump := s.snapshot.glideMode = 0
  let env ← envNudge (2 :: k) v.env
  let v := writeTarget period v
  let v := if jump then writePeriod period v else v
  let v := if s.params.filterPresent then writeCutoff (retunedCutoff (1 :: k) s period vel) v else v
  let panning ← if jump then pure pan else readPanning v
  return voiceGains (3 :: k) (writePanning panning (writeTargetPanning pan (writeNote note { v with env := env })))

/-- `RESTART_MONO_VOICE(note, vel)` (45 R266). -/
def restartMonoVoice (k : Key) (note vel : Int) (s : State) : Except Halt State := do
  let period ← calcPeriod (0 :: k) s.snapshot 0 note
  let v ← retunedVoice s (1 :: k) period note vel (getVoice s.voices 0)
  return writeLastNote note { s with voices := setVoice s.voices 0 v }

/-! ## The mono note queue -/

/-- Slots 1 to 7 take the note below them and are released (45 R267). -/
def pushNotes (filterPresent : Bool) (vs : VoiceFile) : VoiceFile where
  v0 := vs.v0
  v1 := voiceRelease filterPresent (writeNote vs.v0.note vs.v1)
  v2 := voiceRelease filterPresent (writeNote vs.v1.note vs.v2)
  v3 := voiceRelease filterPresent (writeNote vs.v2.note vs.v3)
  v4 := voiceRelease filterPresent (writeNote vs.v3.note vs.v4)
  v5 := voiceRelease filterPresent (writeNote vs.v4.note vs.v5)
  v6 := voiceRelease filterPresent (writeNote vs.v5.note vs.v6)
  v7 := voiceRelease filterPresent (writeNote vs.v6.note vs.v7)

/-- `SHIFT_QUEUED_NOTES()`: reads the notes of voices 0 to 6 (45 R267). -/
def shiftQueuedNotes (filterPresent : Bool) (vs : VoiceFile) : Except Halt VoiceFile := do
  need (notesSet ((voiceList vs).take 7))
  return pushNotes filterPresent vs

/-- The lowest slot of 1 to 7 that holds a note (45 R268). -/
def queuedSlot (vs : VoiceFile) : Option (Fin 8) :=
  ((indexedVoices vs).tail.find? fun x => voiceIsHeld x.2).map (·.1)

/-- The popped note, or 0, and the voices after (45 R268). -/
def popNote (vs : VoiceFile) : Int × VoiceFile :=
  match queuedSlot vs with
  | some t => ((getVoice vs t).note, setVoice vs t (writeNote 0 (getVoice vs t)))
  | none => (0, vs)

/-- `NEXT_QUEUED_NOTE()`: reads the notes of slots 1 to 7 (45 R268). -/
def nextQueuedNote (vs : VoiceFile) : Except Halt (Int × VoiceFile) := do
  need (notesSet (voiceList vs).tail)
  return popNote vs

end Sys2Proof.Machine
end

