-- ==== Sys2Proof/Machine/Notes.lean ====
section
/-!
DEFINITION. The note instructions (44_events.md R232 to R236) and the note-off procedure that the sustain pedal
shares (R234, R240).
-/

namespace Sys2Proof.Machine

/-- `NOTE_ON_OP(n, vel)` (44 R232). -/
def noteOnOp (k : Key) (n vel : Int) (s : State) : Except Halt State := do
  if isMono s.snapshot then
    need s.voices.v0.written.note
    if voiceIsHeld s.voices.v0 then
      let vs ← shiftQueuedNotes s.params.filterPresent s.voices
      restartMonoVoice k n vel { s with voices := vs }
    else startVoice k 0 n vel s
  else
    let i ← findFreeVoice s.snapshot s.voices
    startVoice k i n vel s

/-- The release scan of one voice (44 R234). -/
def releaseMatching (filterPresent pedal : Bool) (n : Int) (v : Voice) : Voice :=
  if v.note = n then
    if pedal then writeNote (-1) v else writeNote 0 (voiceRelease filterPresent v)
  else v

/-- All eight voices after the release scan (44 R234). -/
def releaseVoices (n : Int) (s : State) : State :=
  { s with
    voices := mapVoices (fun _ v => releaseMatching s.params.filterPresent s.sustainPedalPressed n v) s.voices }

/-- The release scan: reads every note, and the pedal when a voice holds `n` (44 R234). -/
def releaseScan (n : Int) (s : State) : Except Halt State := do
  need (notesSet (voiceList s.voices))
  need (s.written.sustainPedalPressed || !(voiceList s.voices).any (·.note == n))
  return releaseVoices n s

/-- The mono branch of a note-off: pop the queue and retune voice 0 to what it held (44 R234). -/
def popQueue (k : Key) (s : State) : Except Halt State := do
  let (q, vs) ← nextQueuedNote s.voices
  let s := { s with voices := vs }
  if 0 < q then restartMonoVoice k q (-1) s else return s

/-- The pop happens only in mono mode, for the note that voice 0 holds (44 R234). -/
def popIfSounding (k : Key) (n : Int) (s : State) : Except Halt State := do
  if isMono s.snapshot then
    need s.voices.v0.written.note
    if s.voices.v0.note = n then popQueue k s else return s
  else return s

/-- `NOTE_OFF_OP(n)` (44 R234): the pop precedes the scan. -/
def noteOffOp (k : Key) (n : Int) (s : State) : Except Halt State := do
  let s ← popIfSounding k n s
  releaseScan n s

/-- `NOTE_OFF` (44 R233). -/
def execNoteOff (_ch : BitVec 4) (n _vel : BitVec 7) (s : State) : Result :=
  finish s (noteOffOp (stepKey s) (dataValue n) s)

/-- `NOTE_ON_V0` (44 R233). -/
def execNoteOnV0 (_ch : BitVec 4) (n : BitVec 7) (s : State) : Result :=
  finish s (noteOffOp (stepKey s) (dataValue n) s)

/-- `NOTE_ON` (44 R232). -/
def execNoteOn (_ch : BitVec 4) (n vel : BitVec 7) (s : State) : Result :=
  finish s (noteOnOp (stepKey s) (dataValue n) (dataValue vel) s)

end Sys2Proof.Machine
end

