-- ==== Sys2Proof/Machine/Control.lean ====
section
/-!
DEFINITION. The control changes, pitch bend, program change and the ignored records (44_events.md R240 to R246).
-/

namespace Sys2Proof.Machine

/-- The pedal is pressed iff the controller value is at least 64 (44 R240). -/
def pedalPressed (val : BitVec 7) : Bool := decide (64 ≤ dataValue val)

/-- `SUSTAIN_OP(val)` (44 R240). -/
def sustainOp (k : Key) (val : BitVec 7) (s : State) : Except Halt State :=
  let s := writePedal (pedalPressed val) s
  if pedalPressed val then .ok s else noteOffOp k (-1) s

/-- `ALL_NOTES_OFF_OP()` (44 R242). -/
def allNotesOffOp (k : Key) (s : State) : State :=
  writePedal false
    { s with voices := mapVoices (fun i v => voiceReset s.params.filterPresent (i.val :: k) v) s.voices }

/-- The mod-wheel amount of a controller value (44 R241). -/
def modWheelAmount (k : Key) (val : BitVec 7) : F32 := fmul k fModwK (fofInt (dataValue val * dataValue val))

/-- The pitch-bend ratio of a bend value (44 R244). -/
def bendRatio (k : Key) (bend : BitVec 14) : F32 := Config.exp (fmul k fBendK (fofInt (bendValue bend - 8192)))

/-- `CC_SUSTAIN` (44 R240). -/
def execCcSustain (_ch : BitVec 4) (val : BitVec 7) (s : State) : Result :=
  finish s (sustainOp (stepKey s) val s)

/-- `CC_MODWHEEL` (44 R241). -/
def execCcModwheel (_ch : BitVec 4) (val : BitVec 7) (s : State) : Result :=
  .next { s with
    modWheel := modWheelAmount (stepKey s) val, written := { s.written with modWheel := true } }

/-- `CC_ALL_NOTES_OFF` (44 R242). -/
def execCcAllNotesOff (_ch : BitVec 4) (_c _val : BitVec 7) (s : State) : Result :=
  .next (allNotesOffOp (stepKey s) s)

/-- `CC_OTHER` (44 R243): nothing. -/
def execCcOther (_ch : BitVec 4) (_c _val : BitVec 7) (s : State) : Result := .next s

/-- `PITCH_BEND` (44 R244). -/
def execPitchBend (_ch : BitVec 4) (bend : BitVec 14) (s : State) : Result :=
  .next { s with
    pitchBend := bendRatio (stepKey s) bend, written := { s.written with pitchBend := true } }

/-- `PROGRAM_CHANGE` (44 R245): a notification, and no other change. -/
def execProgramChange (_ch : BitVec 4) (prog _d2 : BitVec 7) (s : State) : Result :=
  .next (notify (.programChange prog) s)

/-- `POLY_PRESSURE` (44 R246): nothing. -/
def execPolyPressure (_ch : BitVec 4) (_d1 _d2 : BitVec 7) (s : State) : Result := .next s

/-- `CHANNEL_PRESSURE` (44 R246): nothing. -/
def execChannelPressure (_ch : BitVec 4) (_d1 _d2 : BitVec 7) (s : State) : Result := .next s

/-- `SYSTEM` (44 R246): nothing. -/
def execSystem (_low : BitVec 4) (_d1 _d2 : BitVec 7) (s : State) : Result := .next s

/-- `DATA_FIRST` (44 R246): nothing. -/
def execDataFirst (_d0 _d1 _d2 : BitVec 7) (s : State) : Result := .next s

end Sys2Proof.Machine
end

