-- ==== Sys2Proof/Machine/Noise.lean ====
section
/-!
DEFINITION. The noise generator (40_noise_oscillator.md R130 to R133): an engine-wide unit whose only state is the
32-bit seed.
-/

namespace Sys2Proof.Machine

/-- The seed that `NOISE.RESET` writes (40 R131). -/
def noiseResetSeed : BitVec 32 := 22222

/-- The seed after one `NOISE.NEXT`, modulo 2^32 (40 R132). -/
def noiseStep (seed : BitVec 32) : BitVec 32 := seed * 196314165 + 907633515

/-- `int32(noiseSeed >> 7) - 16777216` of the updated seed (40 R132). -/
def noiseTemp (seed : BitVec 32) : Int := ((seed >>> 7).toNat : Int) - 16777216

/-- The sample of an updated seed (40 R132). -/
def noiseSample (k : Key) (seed : BitVec 32) : F32 := fdiv k (fofInt (noiseTemp seed)) fTwo24

/-- `NOISE.NEXT` of a seed that holds a value iff `isSet`: the stepped seed and its sample (40 R132). -/
def noiseNext (k : Key) (isSet : Bool) (seed : BitVec 32) : Except Halt (BitVec 32 × F32) := do
  need isSet
  return (noiseStep seed, noiseSample k (noiseStep seed))

end Sys2Proof.Machine
end

