-- ==== Sys2Proof/Machine/Commands.lean ====
section
/-!
DEFINITION. The host commands (47_scheduler_host.md R320 to R325 and R330 to R332). `PROCESS_BLOCK` checks and accepts
a block here; the loop of R320 over its events and frames is run by the scheduler, one event or one frame a step
(00_scope.md R7; Scheduler.lean; log 1).
-/

namespace Sys2Proof.Machine

/-- The registers that an accepted `ALLOCATE` writes (47 R330). -/
def allocateOp (sr : F32) (blockSize : Int) (s : State) : State :=
  { s with
    sampleRate := sr,
    voices := if s.params.filterPresent then
        mapVoices (fun _ v => { v with filter := { v.filter with sampleRate := sr } }) s.voices
      else s.voices,
    blockSize := blockSize,
    lifecycle := .allocated }

/-- The life state after `RESET` (47 R332). -/
def lifecycleAfterReset : Lifecycle → Lifecycle
  | .unallocated => .unallocated
  | .allocated => .ready
  | .ready => .ready

/-- The registers that `RESET` writes (47 R332; 10 R61). -/
def resetOp (k : Key) (s : State) : State :=
  { s with
    voices := mapVoices (fun i v => voiceReset s.params.filterPresent (i.val :: k) v) s.voices,
    noiseSeed := noiseResetSeed,
    pitchBend := f1,
    sustainPedalPressed := false,
    lfo := f0,
    lfoStep := 0,
    modWheel := f0,
    lastNote := 0,
    filterZip := f0,
    vibratoMod := f1,
    pwm := f1,
    written := EngineWritten.all,
    lifecycle := lifecycleAfterReset s.lifecycle }

/-- Accepting a block: the snapshot is loaded, the notifications cleared and the scheduler started; the output
elements are written from index 0 on (47 R320, R321). The command has not returned yet. -/
def acceptBlock (p : Snapshot) (events : List Event) (frames channels : Nat) (s : State) : State :=
  { s with
    snapshot := p,
    notifications := [],
    block := some (startBlock events frames channels),
    out := emptyBuffers,
    reply := .pending }

/-- The end of a block: the scheduler registers are discarded and the command returns (10 R38; 70 R396). -/
def endBlock (s : State) : State := complete { s with block := none }

/-- `ALLOCATE(sampleRate, blockSize)` (47 R330). -/
def execAllocate (sampleRate : Number) (blockSize : Int) (s : State) : Result :=
  unlessStuck s <|
    let sr := fofNumber (stepKey s) sampleRate
    if allocArgsLegal sr blockSize then .next (complete (allocateOp sr blockSize s))
    else .next (refuse .allocArgs s)

/-- `DEALLOCATE()` (47 R331). -/
def execDeallocate (s : State) : Result :=
  unlessStuck s <| .next (complete { s with lifecycle := .unallocated })

/-- `RESET()` (47 R332). -/
def execReset (s : State) : Result :=
  unlessStuck s <| .next (complete (resetOp (stepKey s) s))

/-- `PROCESS_BLOCK(snapshot, events, N, channels)`: the checks of 47 R320 in their order, then the block is
accepted. -/
def execProcessBlock (p : Snapshot) (events : List Event) (frames channels : Nat) (s : State) : Result :=
  unlessStuck s <|
    if s.lifecycle = .ready then
      match blockRefusal s.params.filterPresent p events frames channels with
      | some reason => .next (refuse reason s)
      | none => .next (acceptBlock p events frames channels s)
    else .next (enterFault .notReady s)

end Sys2Proof.Machine
end

