-- ==== Sys2Proof/Machine/Dispatch.lean ====
section
/-! DEFINITION. One instruction: one arm for each constructor of Instr, each a direct call of its meaning. -/

namespace Sys2Proof.Machine

def exec (i : Instr) (s : State) : Host.Outcome State Fault Refusal :=
  match i with
  | .noteOff ch n vel => Sys2Proof.Machine.execNoteOff ch n vel s
  | .noteOnV0 ch n => Sys2Proof.Machine.execNoteOnV0 ch n s
  | .noteOn ch n vel => Sys2Proof.Machine.execNoteOn ch n vel s
  | .polyPressure ch d1 d2 => Sys2Proof.Machine.execPolyPressure ch d1 d2 s
  | .ccModwheel ch val => Sys2Proof.Machine.execCcModwheel ch val s
  | .ccSustain ch val => Sys2Proof.Machine.execCcSustain ch val s
  | .ccAllNotesOff ch c val => Sys2Proof.Machine.execCcAllNotesOff ch c val s
  | .ccOther ch c val => Sys2Proof.Machine.execCcOther ch c val s
  | .programChange ch prog d2 => Sys2Proof.Machine.execProgramChange ch prog d2 s
  | .channelPressure ch d1 d2 => Sys2Proof.Machine.execChannelPressure ch d1 d2 s
  | .pitchBend ch bend => Sys2Proof.Machine.execPitchBend ch bend s
  | .system low d1 d2 => Sys2Proof.Machine.execSystem low d1 d2 s
  | .dataFirst d0 d1 d2 => Sys2Proof.Machine.execDataFirst d0 d1 d2 s
  | .allocate sampleRate blockSize => Sys2Proof.Machine.execAllocate sampleRate blockSize s
  | .deallocate => Sys2Proof.Machine.execDeallocate s
  | .reset => Sys2Proof.Machine.execReset s
  | .processBlock snapshot events frames channels => Sys2Proof.Machine.execProcessBlock snapshot events frames channels s

end Sys2Proof.Machine
end

