-- ==== Sys2Proof/Machine/Render.lean ====
section
/-!
DEFINITION. The LFO, the modulation and the render loop (46_render.md R290 to R297): the segment prologue, one sample
frame, the segment epilogue.
-/

namespace Sys2Proof.Machine

/-- `LFO_SHAPE(w, phi)` (46 R290). -/
def lfoShape (k : Key) (w : Int) (phi : F32) : F32 :=
  if w = 0 then Config.sin phi
  else if w = 1 then fsub (2 :: k) f1 (fdiv (1 :: k) (fmul (0 :: k) f2 (fabs phi)) fPi)
  else if w = 2 then fdiv (0 :: k) phi fPi
  else if fle f0 phi then f1
  else fNeg1

/-- `UPDATE_PERIOD(voice)`: reads the engine's pitch bend and the snapshot's detune (46 R292). -/
def updatePeriod (s : State) (k : Key) (v : Voice) : Except Halt Voice := do
  let period ← readPeriod v
  let pitchBend ← readSet s.written.pitchBend s.pitchBend
  let period1 := fmul (0 :: k) period pitchBend
  return { v with
           osc1 := { v.osc1 with period := period1 },
           osc2 := { v.osc2 with period := fmul (1 :: k) period1 s.snapshot.detune } }

/-! ## Segment prologue -/

/-- The registers a segment prologue copies into an active voice, after `UPDATE_PERIOD` read the pitch bend
(46 R291). -/
def copySegmentRegisters (s : State) (v : Voice) : Voice :=
  let v := writeGlideRate s.snapshot.glideRate v
  if s.params.filterPresent then
    writeFilterEnvDepth s.snapshot.filterEnvDepth
      (writeVoicePitchBend s.pitchBend (writeFilterQ s.snapshot.filterQ v))
  else v

/-- The prologue of one voice (46 R291). -/
def prologueVoice (s : State) (k : Key) (v : Voice) : Except Halt Voice := do
  if ← readActive v then
    let v ← updatePeriod s k v
    return copySegmentRegisters s v
  else return v

/-- The segment prologue (46 R291). -/
def prologue (k : Key) (s : State) : Except Halt State := do
  let vs ← updateVoices (fun i v => prologueVoice s (i.val :: k) v) s.voices
  return { s with voices := vs }

/-! ## The LFO -/

/-- The phase after a tick, wrapped once (46 R294). -/
def lfoAdvance (k : Key) (s : State) : F32 :=
  let lfo := fadd (0 :: k) s.lfo s.snapshot.lfoInc
  if flt fPi lfo then fsub (1 :: k) lfo fTwoPi else lfo

/-- A modulation multiplier: `1.0 + (shape * (modWheel + depth))` (46 R294). -/
def modulationOf (k : Key) (shape modWheel depth : F32) : F32 :=
  fadd (2 :: k) f1 (fmul (1 :: k) shape (fadd (0 :: k) modWheel depth))

/-- The filter modulation smoothed toward `filterKeyTracking + filterLFODepth * shape` (46 R294). -/
def smoothFilterMod (k : Key) (s : State) (shape : F32) : F32 :=
  let fm := fadd (1 :: k) s.snapshot.filterKeyTracking (fmul (0 :: k) s.snapshot.filterLFODepth shape)
  fadd (4 :: k) s.filterZip (fmul (3 :: k) fZipK (fsub (2 :: k) fm s.filterZip))

/-- The engine registers of an LFO tick, when the ones it reads hold values (46 R294). -/
def tickRegisters (k : Key) (s : State) : State :=
  let lfo := lfoAdvance (0 :: k) s
  let shape := lfoShape (1 :: k) s.snapshot.lfoWaveform lfo
  { s with
    lfoStep    := s.params.lfoMax,
    lfo        := lfo,
    vibratoMod := modulationOf (2 :: k) shape s.modWheel s.snapshot.vibrato,
    pwm        := modulationOf (3 :: k) shape s.modWheel s.snapshot.pwmDepth,
    filterZip  := smoothFilterMod (4 :: k) s shape,
    written    := { s.written with
      lfoStep := true, lfo := true, vibratoMod := true, pwm := true, filterZip := true } }

/-- The engine registers that an LFO tick reads before it writes them: the phase, the mod wheel and the smoothed filter
modulation (46 R294). -/
def tickSet (w : EngineWritten) : Bool := w.lfo && w.modWheel && w.filterZip

/-- An LFO tick's effect on one voice, from the updated engine registers `s` (46 R294). -/
def tickVoice (s : State) (k : Key) (v : Voice) : Except Halt Voice := do
  if ← readActive v then
    need (s.written.vibratoMod && s.written.pwm && s.written.filterZip)
    let v := { v with
      osc1 := { v.osc1 with modulation := s.vibratoMod }, osc2 := { v.osc2 with modulation := s.pwm } }
    let v := if s.params.filterPresent then writeFilterMod s.filterZip v else v
    let v ← voiceUpdateLfo s.params.filterPresent (0 :: k) v
    updatePeriod s (1 :: k) v
  else return v

/-- An LFO tick (46 R294). -/
def lfoTick (k : Key) (s : State) : Except Halt State := do
  need (tickSet s.written)
  let s := tickRegisters (8 :: k) s
  let vs ← updateVoices (fun i v => tickVoice s (i.val :: k) v) s.voices
  return { s with voices := vs }

/-- `LFO_STEP()` (46 R294). -/
def lfoStepOp (k : Key) (s : State) : Except Halt State := do
  need s.written.lfoStep
  let s := { s with lfoStep := s.lfoStep - 1 }
  if s.lfoStep ≤ 0 then lfoTick k s else return s

/-! ## One sample frame -/

/-- The mix of one voice into left and right, if it is active when it is reached (46 R293). -/
def mixVoice (s : State) (noise : F32) (k : Key) (lr : F32 × F32) (v : Voice) :
    Except Halt ((F32 × F32) × Voice) := do
  if ← readActive v then
    let (o, v) ← voiceRender s.params.filterPresent (0 :: k) noise v
    need v.written.gains
    return ((fadd (2 :: k) lr.1 (fmul (1 :: k) o v.panLeft), fadd (4 :: k) lr.2 (fmul (3 :: k) o v.panRight)), v)
  else return (lr, v)

/-- The frame's noise draw: the stepped seed and the scaled sample (40 R132; 46 R293). -/
def frameNoise (k : Key) (s : State) : Except Halt (BitVec 32 × F32) := do
  let (seed, x) ← noiseNext (0 :: k) s.written.noiseSeed s.noiseSeed
  return (seed, fmul (1 :: k) x s.snapshot.noiseMix)

/-- The output stage of a frame (46 R293). -/
def writeFrame (k : Key) (channels : Nat) (lr : F32 × F32) (s : State) : State :=
  let left := fmul (0 :: k) lr.1 s.snapshot.outputLevel
  let right := fmul (1 :: k) lr.2 s.snapshot.outputLevel
  { s with out := outFrame channels left right (fmul (3 :: k) (fadd (2 :: k) left right) fHalf) s.out }

/-- One sample frame (46 R293). -/
def frame (k : Key) (channels : Nat) (s : State) : Except Halt State := do
  let s ← lfoStepOp (10 :: k) s
  let (seed, noise) ← frameNoise (11 :: k) s
  let (lr, vs) ← foldVoices (fun i lr v => mixVoice s noise (i.val :: k) lr v) (f0, f0) s.voices
  return writeFrame (12 :: k) channels lr { s with noiseSeed := seed, voices := vs }

/-! ## Segment epilogue -/

/-- The epilogue of one voice whose level holds a value (46 R296). -/
def epilogueVoice (filterPresent : Bool) (v : Voice) : Voice :=
  if voiceIsActive v then v
  else if filterPresent then { v with env := envReset v.env, filter := filterReset v.filter }
  else { v with env := envReset v.env }

/-- All eight voices after the epilogue (46 R296). -/
def closeVoices (s : State) : State :=
  { s with voices := mapVoices (fun _ v => epilogueVoice s.params.filterPresent v) s.voices }

/-- The segment epilogue: reads every voice's level (46 R296). -/
def epilogue (s : State) : Except Halt State := do
  need ((voiceList s.voices).all (·.env.levelSet))
  return closeVoices s

/-! ## A render call, one frame at a time -/

/-- The prologue, when the frame at the cursor is the first of its segment (46 R297; 47 R322). -/
def openSegment (k : Key) (b : Block) (s : State) : Except Halt State :=
  if b.cursor = segmentStart b then prologue k s else .ok s

/-- The epilogue, when the frame at the cursor is the last of its segment (46 R297; 47 R322). -/
def closeSegment (b : Block) (s : State) : Except Halt State :=
  if b.cursor + 1 = segmentEnd b then epilogue s else .ok s

/-- The frame at the cursor of a block. The frames of a segment, taken in turn, are `RENDER(n, off)`; a segment of
no frames runs nothing (46 R297; 47 R322). -/
def segmentFrame (k : Key) (b : Block) (s : State) : Except Halt State := do
  let s ← openSegment (0 :: k) b s
  let s ← frame (1 :: k) b.channels s
  closeSegment b s

end Sys2Proof.Machine
end

