-- ==== Sys2Proof/Machine/Scheduler.lean ====
section
/-!
DEFINITION. What a step does around `exec` (47_scheduler_host.md R320 to R326): taking the next host command between
blocks; inside a block, applying the event that is due or rendering one sample frame; ending the block.
-/

namespace Sys2Proof.Machine

/-- The state after an event was applied: `evIndex` moves on (47 R320). -/
def afterEvent (s : State) : State := nextDraw { s with block := s.block.map advanceEvent }

/-- The state after a frame was rendered: `cursor` moves on (10 R38). -/
def afterFrame (s : State) : State := nextDraw { s with block := s.block.map advanceCursor }

/-- An outcome with `f` applied to a next state. -/
def mapNext (f : State → State) : Result → Result
  | .next s => .next (f s)
  | .fault r => .fault r
  | .refused r => .refused r

/-- `EVENT_APPLY(bytes)`, then the next event (44 R230; 47 R320). A record of more than three bytes changes
nothing (47 R324); an empty one is in no accepted block (log 16). -/
def applyEvent (bytes : List Byte) (s : State) : Result :=
  match decode bytes with
  | .ok i => mapNext afterEvent (exec i s)
  | .error _ => .next (afterEvent s)

/-- The step that renders the frame at the cursor (46 R293, R297). A frame that faults moves nothing on. -/
def frameStep (b : Block) (s : State) : Result :=
  finish s (do return afterFrame (← segmentFrame (stepKey s) b s))

/-- One step of the block in progress (47 R320): frames up to the next event's offset, then the event; after the
last event the rest of the frames; then the end. -/
def blockStep (b : Block) (s : State) : Result :=
  match nextEvent b with
  | some e => if b.cursor < e.offset then frameStep b s else applyEvent e.bytes s
  | none => if b.cursor < b.frames then frameStep b s else .next (endBlock s)

/-- Taking the next host command (47); with none the core does nothing (log 27). -/
def commandStep (s : State) : Result :=
  match s.commands with
  | [] => .next s
  | c :: rest => mapNext nextDraw (exec (commandInstr c) { s with commands := rest })

/-- One step of a machine that is not in the fault state. -/
def liveStep (s : State) : Result :=
  match s.block with
  | some b => blockStep b s
  | none => commandStep s

/-- The block in progress that stands for "this record is the next event": one event, due now (log 18). -/
def blockForRecord (bytes : List Byte) : Block := startBlock [{ offset := 0, bytes := bytes }] 1 2

/-- The snapshot `P0` of 95_test_vectors.md §2, a legal snapshot (log 18). -/
def snapshotP0 : Snapshot where
  numVoices           := 8
  detune              := 0x3F800000#32
  oscMix              := 0x00000000#32
  tune                := 0x45A88FCA#32
  volumeTrim          := 0x3A83126F#32
  noiseMix            := 0x00000000#32
  outputLevel         := 0x3F800000#32
  envAttack           := 0x3F000000#32
  envDecay            := 0x3F000000#32
  envSustain          := 0x3F000000#32
  envRelease          := 0x3F000000#32
  filterAttack        := 0x3F000000#32
  filterDecay         := 0x3F000000#32
  filterSustain       := 0x3F000000#32
  filterRelease       := 0x3F000000#32
  glideMode           := 0
  glideRate           := 0x3F800000#32
  glideBend           := 0x00000000#32
  lfoInc              := 0x00000000#32
  lfoWaveform         := 0
  vibrato             := 0x00000000#32
  pwmDepth            := 0x00000000#32
  filterKeyTracking   := 0x00000000#32
  filterQ             := 0x3F34FDF4#32
  filterLFODepth      := 0x00000000#32
  filterEnvDepth      := 0x00000000#32
  velocitySensitivity := 0x00000000#32

/-- The snapshot of a block placed for a fetch: the loaded one if it is legal, else `P0`. -/
def fetchSnapshot (s : State) : Snapshot :=
  if snapshotLegal s.params.filterPresent s.snapshot then s.snapshot else snapshotP0

end Sys2Proof.Machine
end

