-- ==== Sys2Proof/Machine/Step.lean ====
section
/-! DEFINITION. One step of the machine, and where it fetches its next instruction. -/

namespace Sys2Proof.Machine

/-- One step: none in the sticky fault state (60_exceptions.md R352), else what Scheduler.lean says. -/
def step (s : State) : Host.Outcome State Fault Refusal :=
  match s.fault with
  | some code => .fault (.stuck code)
  | none => liveStep s

/-- `s` with a record placed as the event that is due in a block in progress, so that the next step applies
exactly it. The machine runs no event outside a block, so a block with a legal snapshot is placed, and the fault
register is cleared (log 18). -/
def State.withFetchWord (s : State) (nbits w : Nat) : State :=
  { s with
    fault    := none,
    snapshot := fetchSnapshot s,
    block    := some (blockForRecord (tableRecord nbits w)) }

end Sys2Proof.Machine
end

