-- ==== Sys2Proof/Safety.lean ====
section
/-!
DEFINITION. What claims are stated in terms of: the observation of a block (47_scheduler_host.md R334), and the
invariants of the machine: a well-formed scheduler and output, legal notes (10_state.md R31), the LFO countdown
(10 R37), and the condition under which no UNSET register is read (70_reset_and_hazards.md R384).
-/

namespace Sys2Proof.Machine

/-! ## Observation -/

/-- Two samples look the same: equal bits, or both NaN (47 R334). -/
def sameSample (x y : F32) : Bool := x == y || (fisNaN x && fisNaN y)

/-- Two element sequences look the same. -/
def sameSamples : List F32 → List F32 → Bool
  | [], [] => true
  | x :: xs, y :: ys => sameSample x y && sameSamples xs ys
  | _ :: _, [] => false
  | [], _ :: _ => false

/-- Two states show the same block: output elements and notifications in order (47 R334). -/
def sameObservation (s t : State) : Bool :=
  sameSamples s.out.ch0 t.out.ch0 && sameSamples s.out.ch1 t.out.ch1 &&
    decide (s.notifications = t.notifications)

/-! ## The scheduler and the output buffers -/

/-- The output buffers hold the frames rendered so far, once each: all of channel 0, and channel 1 only in a
stereo block (20 R82). It stands in the place of a memory's canonical form (log 15). -/
def OutBuffers.wf (b : Block) (o : OutBuffers) : Bool :=
  o.ch0.length == b.cursor && o.ch1.length == (if b.channels = 2 then b.cursor else 0)

/-- The operands of a block that R320 and R325 of 47 accept. -/
def blockOperandsLegal (b : Block) : Bool :=
  channelsLegal b.channels && eventsNonempty b.events && eventsInRange b.frames b.events &&
    eventsOrdered b.events

/-- The scheduler registers are in range, and the cursor is inside the segment in progress (10 R38; 47 R322). -/
def cursorsInRange (b : Block) : Bool :=
  decide (b.evIndex ≤ b.events.length) && decide (segmentStart b ≤ b.cursor) &&
    decide (b.cursor ≤ segmentEnd b)

/-- A block in progress was accepted by a READY machine with a legal snapshot, and its registers and output are in
order. -/
def schedulerOk (s : State) : Bool :=
  match s.block with
  | none => true
  | some b =>
    decide (s.lifecycle = .ready) && snapshotLegal s.params.filterPresent s.snapshot &&
      blockOperandsLegal b && cursorsInRange b && s.out.wf b

/-- The block of the state, while it has one, has this many frames and events still to do. -/
def unitsLeft (b : Block) : Nat := (b.frames - b.cursor) + (b.events.length - b.evIndex)

/-! ## Registers -/

/-- The note of a voice is UNSET, or -1, 0 or a note (10 R31, R60). -/
def noteLegal (v : Voice) : Bool := !v.written.note || (decide (-1 ≤ v.note) && decide (v.note ≤ 127))

/-- Every voice's note is legal, and `lastNote` is UNSET, or 0 or a note (10 R31, R37, R60). -/
def notesOk (s : State) : Bool :=
  (voiceList s.voices).all noteLegal &&
    (!s.written.lastNote || (decide (0 ≤ s.lastNote) && decide (s.lastNote ≤ 127)))

/-- The LFO countdown is UNSET, or in `0 .. LFO_MAX`, with `LFO_MAX >= 1` (00 R5; 10 R37, R60). -/
def countdownOk (s : State) : Bool :=
  decide (1 ≤ s.params.lfoMax) &&
    (!s.written.lfoStep || (decide (0 ≤ s.lfoStep) && decide (s.lfoStep ≤ s.params.lfoMax)))

/-! ## No UNSET register is read (70 R384) -/

/-- Every register of a voice that `VOICE.RESET` writes holds a value, the filter's only when it is present
(10 R61; 43 R201). -/
def voiceSet (filterPresent : Bool) (v : Voice) : Bool :=
  v.written.note && v.written.panning && v.written.targetPanning && v.written.gains && v.written.saw &&
    v.osc1.cycleSet && v.osc2.cycleSet && envSet v.env &&
    (!filterPresent || (envSet v.filterEnv && filterSet v.filter))

/-- Every register that `RESET` writes holds a value (10 R61). -/
def registersSet (s : State) : Bool :=
  decide (s.written = EngineWritten.all) && (voiceList s.voices).all (voiceSet s.params.filterPresent)

/-- An oscillator whose `phaseMax` is UNSET is at rest, so that its next call starts a cycle. -/
def oscSafe (o : Oscillator) : Bool := o.phaseMaxSet || (o.phase == f0 && o.inc == f0)

/-- An active voice has the registers that note start writes. -/
def startedSafe (filterPresent : Bool) (v : Voice) : Bool :=
  !voiceIsActive v || (v.written.period && v.written.target && (!filterPresent || v.written.cutoff))

/-- An active voice has the registers that the segment prologue copies. -/
def copiedSafe (filterPresent : Bool) (v : Voice) : Bool :=
  !voiceIsActive v ||
    (v.written.glideRate &&
      (!filterPresent || (v.written.filterQ && v.written.pitchBend && v.written.filterEnvDepth)))

/-- A voice of a machine that has started no note since its construction: no held note, level 0, not in
attack. -/
def voiceUntouched (v : Voice) : Bool := decide (v.note ≤ 0) && v.env.level == f0 && v.env.target == f0

/-- The prologue of the segment in progress has run: some frame of it was rendered. -/
def insideSegment (s : State) : Bool :=
  match s.block with
  | none => false
  | some b => decide (b.cursor ≠ segmentStart b)

/-- The registers of a READY machine: those that `RESET` writes hold values, the oscillators and the active voices hold
what a frame reads, and until voice 0 has been started no voice has (70 R384). -/
def readySafe (s : State) : Bool :=
  registersSet s &&
    (voiceList s.voices).all (fun v => oscSafe v.osc1 && oscSafe v.osc2) &&
    (voiceList s.voices).all (startedSafe s.params.filterPresent) &&
    (!insideSegment s || (voiceList s.voices).all (copiedSafe s.params.filterPresent)) &&
    (s.voices.v0.written.period || (voiceList s.voices).all voiceUntouched)

/-- The condition of the claim of 70 R384. A machine that is not READY takes host commands only, and they read no
register that may be UNSET. -/
def unsetSafe (s : State) : Bool := decide (s.lifecycle ≠ .ready) || readySafe s

end Sys2Proof.Machine
end

