-- ==== Sys2Proof/Certificates/Slice0/Obligations.lean ====
section
/-!
DEFINITION. The statements for the provers. The first part gives the vocabulary of the claims: what the spec says a
procedure leaves, written out field by field with the spec's literals. A value whose operations draw NaNs is given for
some key, or for some keys `k 0`, `k 1`, … (00_scope.md R14).
-/

namespace Sys2Proof.Claims

open Sys2Proof.Machine

/-! ## Oscillator, envelope and filter (40 R136, R138; 41 R162; 42 R182, R183) -/

/-- The start of a cycle at the advanced phase `phase`: `u` is the oscillator after it and `y` the kernel value
(40 R136, first branch). -/
def CycleStart (o : Oscillator) (phase y : F32) (u : Oscillator) : Prop :=
  ∃ k : Nat → Key, ∃ half edge,
    half = fmul (k 1) (fdiv (k 0) o.period 0x40000000#32) o.modulation ∧
    edge = fsub (k 4) (ffloor (k 3) (fadd (k 2) 0x3F000000#32 half)) 0x3F000000#32 ∧
    u = { o with
      dc := fdiv (k 6) (fmul (k 5) 0x3F000000#32 o.amplitude) edge, phaseMax := fmul (k 7) edge 0x40490FDB#32,
      inc := fdiv (k 8) u.phaseMax half, phase := fneg phase, sin0 := fmul (k 9) o.amplitude (Config.sin u.phase),
      sin1 := fmul (k 11) o.amplitude (Config.sin (fsub (k 10) u.phase u.inc)),
      dsin := fmul (k 12) 0x40000000#32 (Config.cos u.inc), phaseMaxSet := true } ∧
    y = if fexceedsKernelEps (fmul (k 13) u.phase u.phase) then fdiv (k 14) u.sin0 u.phase else o.amplitude

/-- A sample inside a cycle at the advanced phase `phase` (40 R136, second branch). -/
def MidCycle (o : Oscillator) (phase y : F32) (u : Oscillator) : Prop :=
  ∃ k : Nat → Key,
    u = { o with
      phase := if flt o.phaseMax phase then fsub (k 1) (fadd (k 0) o.phaseMax o.phaseMax) phase else phase,
      inc := if flt o.phaseMax phase then fneg o.inc else o.inc, sin1 := o.sin0,
      sin0 := fsub (k 3) (fmul (k 2) o.dsin o.sin0) o.sin1 } ∧
    y = fdiv (k 4) u.sin0 u.phase

/-- `OSC.NEXT` returns `x` and leaves `u` (40 R136). -/
def OscStep (o : Oscillator) (x : F32) (u : Oscillator) : Prop :=
  ∃ k : Nat → Key, ∃ phase y, phase = fadd (k 0) o.phase o.inc ∧ x = fsub (k 1) y u.dc ∧
    if fle phase 0x3F490FDB#32 then CycleStart o phase y u else o.phaseMaxSet = true ∧ MidCycle o phase y u

/-- `OSC.SQUAREWAVE(other, newPeriod)` leaves `u` of `o` (40 R138). -/
def Resynchronised (o other : Oscillator) (newPeriod : F32) (u : Oscillator) : Prop :=
  ∃ k : Nat → Key, ∃ start,
    (if flt 0x00000000#32 other.inc then
        start = fsub (k 1) (fadd (k 0) other.phaseMax other.phaseMax) other.phase ∧ u.inc = fneg other.inc
      else if flt other.inc 0x00000000#32 then start = other.phase ∧ u.inc = other.inc
      else start = 0xC0490FDB#32 ∧ u.inc = 0x40490FDB#32) ∧
    u = { o with
      phase := fadd (k 4) start (fdiv (k 3) (fmul (k 2) 0x40490FDB#32 newPeriod) 0x40000000#32),
      phaseMax := u.phase, inc := u.inc, sin0 := 0x00000000#32, sin1 := 0x00000000#32, dsin := 0x00000000#32,
      dc := 0x00000000#32, cycleSet := true, phaseMaxSet := true }

/-- `ENV.NEXT` returns `l` and leaves `u` (41 R162). -/
def EnvStep (e : Envelope) (l : F32) (u : Envelope) : Prop :=
  ∃ k : Nat → Key, l = fadd (k 2) (fmul (k 1) e.multiplier (fsub (k 0) e.level e.target)) e.target ∧
    u = if flt 0x40400000#32 (fadd (k 3) l e.target) then
        { e with level := l, multiplier := e.decayMultiplier, target := e.sustainLevel }
      else { e with level := l }

/-- `FILTER.UPDATE(cutoff, Q)` leaves `u` (42 R182). -/
def FilterTuned (cutoff q : F32) (f u : Filter) : Prop :=
  ∃ k : Nat → Key, u = { f with
    g := Config.tan (fdiv (k 1) (fmul (k 0) 0x40490FDB#32 cutoff) f.sampleRate), k := fdiv (k 2) 0x3F800000#32 q,
    a1 := fdiv (k 6) 0x3F800000#32 (fadd (k 5) 0x3F800000#32 (fmul (k 4) u.g (fadd (k 3) u.g u.k))),
    a2 := fmul (k 7) u.g u.a1, a3 := fmul (k 8) u.g u.a2, coeffsSet := true }

/-- `FILTER.RENDER(x)` returns `y` and leaves `u` (42 R183). -/
def FilterStep (f : Filter) (x y : F32) (u : Filter) : Prop :=
  ∃ k : Nat → Key, ∃ v3 v1, v3 = fsub (k 0) x f.ic2eq ∧
    v1 = fadd (k 3) (fmul (k 1) f.a1 f.ic1eq) (fmul (k 2) f.a2 v3) ∧
    y = fadd (k 7) (fadd (k 5) f.ic2eq (fmul (k 4) f.a2 f.ic1eq)) (fmul (k 6) f.a3 v3) ∧
    u = { f with
      ic1eq := fsub (k 9) (fmul (k 8) 0x40000000#32 v1) f.ic1eq,
      ic2eq := fsub (k 11) (fmul (k 10) 0x40000000#32 y) f.ic2eq }

/-! ## Voices (40 R135; 41 R161, R164; 42 R181; 43 R201, R203) -/

/-- What `OSC.RESET` leaves of an oscillator (40 R135). -/
def restOsc (o : Oscillator) : Oscillator :=
  { o with
    inc := 0x00000000#32, phase := 0x00000000#32, sin0 := 0x00000000#32, sin1 := 0x00000000#32,
    dsin := 0x00000000#32, dc := 0x00000000#32, cycleSet := true }

/-- What `ENV.RESET` leaves of an envelope (41 R161). -/
def silentEnv (e : Envelope) : Envelope :=
  { e with
    level := 0x00000000#32, target := 0x00000000#32, multiplier := 0x00000000#32, levelSet := true,
    targetSet := true, multiplierSet := true }

/-- What `FILTER.RESET` leaves of a filter (42 R181). -/
def clearFilter (f : Filter) : Filter :=
  { f with
    g := 0x00000000#32, k := 0x00000000#32, a1 := 0x00000000#32, a2 := 0x00000000#32, a3 := 0x00000000#32,
    ic1eq := 0x00000000#32, ic2eq := 0x00000000#32, coeffsSet := true, integratorsSet := true }

/-- What `VOICE.RESET` leaves of a voice: FREE, silent, centred, its pan gains `Sin(PI_OVER_4)` (43 R201;
10 R61). -/
def silencedVoice (filterPresent : Bool) (v : Voice) : Voice :=
  { v with
    note := 0, saw := 0x00000000#32, osc1 := restOsc v.osc1, osc2 := restOsc v.osc2, env := silentEnv v.env,
    panning := 0x00000000#32, targetPanning := 0x00000000#32,
    panLeft := Config.sin 0x3F490FDB#32, panRight := Config.sin 0x3F490FDB#32,
    filter := if filterPresent then clearFilter v.filter else v.filter,
    filterEnv := if filterPresent then silentEnv v.filterEnv else v.filterEnv,
    written := { v.written with
      note := true, saw := true, panning := true, targetPanning := true, gains := true } }

/-- What `ENV.RELEASE` leaves of an envelope whose fields hold values (41 R164). -/
def releasedEnv (e : Envelope) : Envelope := { e with target := 0x00000000#32, multiplier := e.releaseMultiplier }

/-- What `VOICE.RELEASE` leaves of a voice (43 R203). -/
def releasedVoice (filterPresent : Bool) (v : Voice) : Voice :=
  { v with
    env := releasedEnv v.env, filterEnv := if filterPresent then releasedEnv v.filterEnv else v.filterEnv }

/-- What the release scan leaves of a voice: SUSTAINED with the pedal down, else released and FREE (44 R234). -/
def scannedVoice (filterPresent pedal : Bool) (n : Int) (v : Voice) : Voice :=
  if v.note = n then
    if pedal then { v with note := -1 } else { releasedVoice filterPresent v with note := 0 }
  else v

/-- What a queue push leaves of a slot: the note below it, released (45 R267). -/
def pushedSlot (filterPresent : Bool) (below slot : Voice) : Voice :=
  { releasedVoice filterPresent slot with note := below.note }

/-- What the segment epilogue leaves of a voice (46 R296). -/
def closedVoice (filterPresent : Bool) (v : Voice) : Voice :=
  if flt 0x38D1B717#32 v.env.level then v
  else { v with env := silentEnv v.env, filter := if filterPresent then clearFilter v.filter else v.filter }

/-- The pan gains of a voice are those of its pan position (43 R205). -/
def GainsOf (u : Voice) : Prop :=
  (∃ k1 k2, u.panLeft = Config.sin (fmul k1 0x3F490FDB#32 (fsub k2 0x3F800000#32 u.panning))) ∧
    ∃ k1 k2, u.panRight = Config.sin (fmul k1 0x3F490FDB#32 (fadd k2 0x3F800000#32 u.panning))

/-- The cutoff of a note: `sampleRate / (period * PI)`, and when it is scaled, times the velocity factor
(45 R265, R266). -/
def CutoffOf (s : State) (scaled : Bool) (period : F32) (vel : Int) (c : F32) : Prop :=
  ∃ k1 k2 k3 k4, c =
    if scaled then
      fmul k1 (fdiv k2 s.sampleRate (fmul k3 period 0x40490FDB#32))
        (Config.exp (fmul k4 s.snapshot.velocitySensitivity (fofInt (vel - 64))))
    else fdiv k2 s.sampleRate (fmul k3 period 0x40490FDB#32)

/-- `CLAMP((float(note) - 60.0) / 24.0, -1.0, 1.0)` (43 R204). -/
def PanOf (note : Int) (x : F32) : Prop :=
  ∃ k1 k2, x = fclamp (fdiv k1 (fsub k2 (fofInt note) 0x42700000#32) 0x41C00000#32) 0xBF800000#32 0x3F800000#32

/-- The glide distance in semitones (45 R265). -/
def glideOf (s : State) (note : Int) : Int :=
  if 0 < s.lastNote then
    if s.snapshot.glideMode = 2 then note - s.lastNote
    else if s.snapshot.glideMode = 1 ∧ ∃ i, 0 < (getVoice s.voices i).note then note - s.lastNote
    else 0
  else 0

/-- The start period: the bent target, floored at 6.0 (45 R265). -/
def StartPeriod (s : State) (target : F32) (note : Int) (x : F32) : Prop :=
  ∃ k1 k2, ∃ bent, bent = fmul k1 target
      (Config.pow 0x3F879C7D#32 (fsub k2 (fofInt (glideOf s note)) s.snapshot.glideBend)) ∧
    x = if flt bent 0x40C00000#32 then 0x40C00000#32 else bent

/-- The envelope that a note start leaves: the coefficients latched, the attack begun from the present level
(41 R163; 45 R265). -/
def AttackedEnv (attack decay sustain release : F32) (e u : Envelope) : Prop :=
  ∃ k, u =
    { level := fadd k e.level 0x3951B717#32,
      attackMultiplier := attack, decayMultiplier := decay, sustainLevel := sustain, releaseMultiplier := release,
      multiplier := attack, target := 0x40000000#32, levelSet := true, targetSet := true, multiplierSet := true }

/-- The second oscillator's square-wave branch is taken (45 R265). -/
def squareWaveOn (p : Snapshot) : Bool := feq p.vibrato 0x00000000#32 && flt 0x00000000#32 p.pwmDepth

/-- `u` is what `START_VOICE` with the target period `p` leaves of the voice `v`, field by field, in state `s`
(45 R265). The last clause says what it does not write. -/
structure Started (s : State) (p : F32) (n vel : Int) (v u : Voice) : Prop where
  note          : u.note = n
  target        : u.target = p
  period        : StartPeriod s p n u.period
  targetPanning : PanOf n u.targetPanning
  panning       : u.panning = u.targetPanning
  gains         : GainsOf u
  amplitude     : ∃ k1 k2 k3, u.osc1.amplitude = fmul k1 s.snapshot.volumeTrim
                    (fsub k2 (fmul k3 0x3B83126F#32 (fofInt ((vel + 64) * (vel + 64)))) 0x41000000#32)
  osc1          : u.osc1 = { v.osc1 with amplitude := u.osc1.amplitude }
  partner       : ∃ k, u.osc2.amplitude = fmul k u.osc1.amplitude s.snapshot.oscMix
  osc2          : if squareWaveOn s.snapshot then
                    Resynchronised { v.osc2 with amplitude := u.osc2.amplitude } u.osc1 u.period u.osc2
                  else u.osc2 = { v.osc2 with amplitude := u.osc2.amplitude }
  env           : AttackedEnv s.snapshot.envAttack s.snapshot.envDecay s.snapshot.envSustain
                    s.snapshot.envRelease v.env u.env
  cutoff        : if s.params.filterPresent then
                    CutoffOf s true p vel u.cutoff ∧ u.written.cutoff = true
                  else u.cutoff = v.cutoff ∧ u.written.cutoff = v.written.cutoff
  filterEnv     : if s.params.filterPresent then
                    AttackedEnv s.snapshot.filterAttack s.snapshot.filterDecay s.snapshot.filterSustain
                      s.snapshot.filterRelease v.filterEnv u.filterEnv
                  else u.filterEnv = v.filterEnv
  unwritten     : u =
                    { v with
                      note := u.note, target := u.target, period := u.period, targetPanning := u.targetPanning,
                      panning := u.panning, panLeft := u.panLeft, panRight := u.panRight, osc1 := u.osc1,
                      osc2 := u.osc2, env := u.env, cutoff := u.cutoff, filterEnv := u.filterEnv,
                      written := { v.written with
                        period := true, target := true, cutoff := u.written.cutoff } }

/-- `u` is what `RESTART_MONO_VOICE` with the period `p` leaves of voice 0, field by field, in state `s`
(45 R266): retuned, its envelope's segment kept. The last clause says what it does not write. -/
structure Retuned (s : State) (p : F32) (n vel : Int) (v u : Voice) : Prop where
  note          : u.note = n
  target        : u.target = p
  period        : u.period = if s.snapshot.glideMode = 0 then p else v.period
  targetPanning : PanOf n u.targetPanning
  panning       : u.panning = if s.snapshot.glideMode = 0 then u.targetPanning else v.panning
  gains         : GainsOf u
  level         : ∃ k, u.env = { v.env with level := fadd k v.env.level 0x3951B717#32 }
  cutoff        : if s.params.filterPresent then CutoffOf s (decide (0 < vel)) p vel u.cutoff ∧ u.written.cutoff = true
                  else u.cutoff = v.cutoff ∧ u.written.cutoff = v.written.cutoff
  unwritten     : u =
                    { v with
                      note := u.note, target := u.target, period := u.period, targetPanning := u.targetPanning,
                      panning := u.panning, panLeft := u.panLeft, panRight := u.panRight, env := u.env,
                      cutoff := u.cutoff,
                      written := { v.written with
                        period := v.written.period || decide (s.snapshot.glideMode = 0), target := true,
                        cutoff := u.written.cutoff } }

/-! ## Periods (45 R260) -/

/-- A period or its detuned partner is below 6.0 (45 R260). -/
def BelowFloor (detune x : F32) : Prop := flt x 0x40C00000#32 = true ∨ ∃ k, flt (fmul k x detune) 0x40C00000#32 = true

/-- `x` is `a` doubled `j` times, and every smaller number of doublings was below the floor (45 R260). -/
def DoublesTo (detune : F32) : Nat → F32 → F32 → Prop
  | 0, a, x => x = a
  | j + 1, a, x => BelowFloor detune a ∧ ∃ k, DoublesTo detune j (fadd k a a) x

/-! ## Rendering (43 R202, R206; 46 R290, R292 to R294) -/

/-- `VOICE.RENDER(noise)` returns `o` and leaves `u` of `v` (43 R202). The last clause says what it does not write. -/
def Rendered (filterPresent : Bool) (noise : F32) (v : Voice) (o : F32) (u : Voice) : Prop :=
  ∃ k : Nat → Key, ∃ s1 s2 x y e,
    OscStep v.osc1 s1 u.osc1 ∧ OscStep v.osc2 s2 u.osc2 ∧
    u.saw = fsub (k 2) (fadd (k 1) (fmul (k 0) v.saw 0x3F7F3B64#32) s1) s2 ∧ x = fadd (k 3) u.saw noise ∧
    (if filterPresent then FilterStep v.filter x y u.filter else y = x ∧ u.filter = v.filter) ∧
    EnvStep v.env e u.env ∧ o = fmul (k 4) y e ∧
    u = { v with osc1 := u.osc1, osc2 := u.osc2, saw := u.saw, filter := u.filter, env := u.env }

/-- The mix of a frame over voices in order: each active voice is rendered once and added to left and right through its
pan gains, each inactive one left alone (46 R293). -/
def Mixed (filterPresent : Bool) (noise : F32) : List (Voice × Voice) → F32 × F32 → F32 × F32 → Prop
  | [], lr, mix => mix = lr
  | (v, u) :: rest, lr, mix =>
    if voiceIsActive v then
      ∃ k : Nat → Key, ∃ o, Rendered filterPresent noise v o u ∧
        Mixed filterPresent noise rest
          (fadd (k 1) lr.1 (fmul (k 0) o v.panLeft), fadd (k 3) lr.2 (fmul (k 2) o v.panRight)) mix
    else u = v ∧ Mixed filterPresent noise rest lr mix

/-- `LFO_SHAPE(w, phi)` is `x` (46 R290). -/
def ShapeOf (w : Int) (phi x : F32) : Prop :=
  ∃ k : Nat → Key, x =
    if w = 0 then Config.sin phi
    else if w = 1 then fsub (k 2) 0x3F800000#32 (fdiv (k 1) (fmul (k 0) 0x40000000#32 (fabs phi)) 0x40490FDB#32)
    else if w = 2 then fdiv (k 3) phi 0x40490FDB#32
    else if fle 0x00000000#32 phi then 0x3F800000#32 else 0xBF800000#32

/-- The engine registers that an LFO tick of `s` leaves in `t` (46 R294). -/
def TickedRegisters (s t : State) : Prop :=
  t.lfoStep = (s.params.lfoMax : Int) ∧
    ∃ k : Nat → Key, ∃ phase shape, phase = fadd (k 0) s.lfo s.snapshot.lfoInc ∧
      t.lfo = (if flt 0x40490FDB#32 phase then fsub (k 1) phase 0x40C90FDB#32 else phase) ∧
      ShapeOf s.snapshot.lfoWaveform t.lfo shape ∧
      t.vibratoMod = fadd (k 4) 0x3F800000#32 (fmul (k 3) shape (fadd (k 2) s.modWheel s.snapshot.vibrato)) ∧
      t.pwm = fadd (k 7) 0x3F800000#32 (fmul (k 6) shape (fadd (k 5) s.modWheel s.snapshot.pwmDepth)) ∧
      t.filterZip = fadd (k 12) s.filterZip (fmul (k 11) 0x3BA3D70A#32
        (fsub (k 10) (fadd (k 9) s.snapshot.filterKeyTracking (fmul (k 8) s.snapshot.filterLFODepth shape))
          s.filterZip))

/-- `u` is what an LFO tick of `s` that left `t` leaves of the active voice `v` (43 R205, R206; 46 R292, R294). The
last clause says what it does not write. -/
structure TickedVoice (s t : State) (v u : Voice) : Prop where
  period    : ∃ k : Nat → Key,
                u.period = fadd (k 2) v.period (fmul (k 1) v.glideRate (fsub (k 0) v.target v.period))
  panning   : ∃ k : Nat → Key,
                u.panning = fadd (k 2) v.panning (fmul (k 1) v.glideRate (fsub (k 0) v.targetPanning v.panning))
  gains     : GainsOf u
  osc1      : ∃ k, u.osc1 = { v.osc1 with modulation := t.vibratoMod, period := fmul k u.period s.pitchBend }
  osc2      : ∃ k, u.osc2 = { v.osc2 with modulation := t.pwm, period := fmul k u.osc1.period s.snapshot.detune }
  filter    : if s.params.filterPresent then
                u.filterMod = t.filterZip ∧ ∃ k : Nat → Key, ∃ fenv, EnvStep v.filterEnv fenv u.filterEnv ∧
                  FilterTuned
                    (fclamp (fdiv (k 3) (fmul (k 2) v.cutoff
                      (Config.exp (fadd (k 1) t.filterZip (fmul (k 0) v.filterEnvDepth fenv)))) v.pitchBend)
                      0x41F00000#32 0x469C4000#32)
                    v.filterQ v.filter u.filter
              else u.filterMod = v.filterMod ∧ u.filterEnv = v.filterEnv ∧ u.filter = v.filter
  unwritten : u =
                { v with
                  period := u.period, panning := u.panning, panLeft := u.panLeft, panRight := u.panRight,
                  osc1 := u.osc1, osc2 := u.osc2, filterMod := u.filterMod, filterEnv := u.filterEnv,
                  filter := u.filter,
                  written := { v.written with
                    gains := true, filterMod := s.params.filterPresent || v.written.filterMod } }

/-- `u` is the state after the LFO step of a frame of `s`: one less, or a tick (46 R294). -/
def AfterLfoStep (s u : State) : Prop :=
  if s.lfoStep ≤ 1 then ∃ k, lfoTick k { s with lfoStep := s.lfoStep - 1 } = .ok u
  else u = { s with lfoStep := s.lfoStep - 1 }

/-! ## Note-offs (44 R233, R234, R240) -/

/-- The note that an instruction releases: a note-off's, or SUSTAINED for a pedal-up. -/
def releasedNote : Instr → Option Int
  | .noteOff _ n _ => some n.toNat
  | .noteOnV0 _ n => some n.toNat
  | .ccSustain _ val => if val.toNat < 64 then some (-1) else none
  | .noteOn _ _ _ => none
  | .polyPressure _ _ _ => none
  | .ccModwheel _ _ => none
  | .ccAllNotesOff _ _ _ => none
  | .ccOther _ _ _ => none
  | .programChange _ _ _ => none
  | .channelPressure _ _ _ => none
  | .pitchBend _ _ => none
  | .system _ _ _ => none
  | .dataFirst _ _ _ => none
  | .allocate _ _ => none
  | .deallocate => none
  | .reset => none
  | .processBlock _ _ _ _ => none

/-- The pedal as the release scan of that instruction sees it: up after a pedal-up. -/
def pedalSeen (n : Int) (s : State) : Bool := if n = -1 then false else s.sustainPedalPressed

/-! ## Dispatch (44 R230) -/

/-- `EVENT_APPLY(bytes)` as 44 R230 writes it, by length, status nibble and masked data bytes, without the
instruction type. -/
def eventApply (bytes : List Byte) (s : State) : Result :=
  if 3 < bytes.length then .next s
  else
    let d0 := bytes.getD 0 0
    let d1 := bytes.getD 1 0 &&& 0x7F
    let d2 := bytes.getD 2 0 &&& 0x7F
    let status := d0 &&& 0xF0
    let s := if status = 0xC0 then notify (.programChange (d1.setWidth 7)) s else s
    if status = 0x80 then finish s (noteOffOp (stepKey s) d1.toNat s)
    else if status = 0x90 then
      if 0 < d2.toNat then finish s (noteOnOp (stepKey s) d1.toNat d2.toNat s)
      else finish s (noteOffOp (stepKey s) d1.toNat s)
    else if status = 0xE0 then
      .next { s with
        pitchBend :=
          Config.exp (fmul (stepKey s) 0xB76C97A1#32 (fofInt ((d1.toNat + 128 * d2.toNat : Nat) - 8192))),
        written := { s.written with pitchBend := true } }
    else if status = 0xB0 then
      if d1 = 0x40 then finish s (sustainOp (stepKey s) (d2.setWidth 7) s)
      else if d1 = 0x01 then
        .next { s with
          modWheel := fmul (stepKey s) 0x36A7C5AC#32 (fofInt ((d2.toNat * d2.toNat : Nat))),
          written := { s.written with modWheel := true } }
      else if 0x78 ≤ d1.toNat then .next (allNotesOffOp (stepKey s) s)
      else .next s
    else .next s

/-! ## A step of a block (46 R297; 47 R320, R322) -/

/-- An outcome with `f` applied to a next state. -/
def onNext (f : State → State) : Result → Result
  | .next t => .next (f t)
  | .fault r => .fault r
  | .refused r => .refused r

/-- `start` is the first frame of the segment in progress: 0, or the offset of the event before (47 R320, R322). -/
def SegmentStartsAt (b : Block) (start : Nat) : Prop :=
  if b.evIndex = 0 then start = 0 else ∃ e, b.events[b.evIndex - 1]? = some e ∧ start = e.offset

/-- `stop` is the frame after the last one of the segment in progress: the next event's offset, or `N`
(47 R320, R322). -/
def SegmentStopsAt (b : Block) (stop : Nat) : Prop :=
  (∃ e, b.events[b.evIndex]? = some e ∧ stop = e.offset) ∨ (b.events[b.evIndex]? = none ∧ stop = b.frames)

/-- What the frame at the cursor of a segment from frame `start` to before frame `stop` does: the prologue first iff it
is the segment's first frame, then one sample frame, then the epilogue iff it is the last (46 R291, R296, R297;
47 R322). -/
def segmentUnit (k1 k2 : Key) (start stop : Nat) (b : Block) (s : State) : Except Halt State :=
  (if b.cursor = start then prologue k1 s else .ok s) >>= frame k2 b.channels >>= fun t =>
    if b.cursor + 1 = stop then epilogue t else .ok t

/-- The step of `s` renders the frame at the cursor of `b`, in a segment from `start` to before `stop`, and moves
`cursor` on by one; if the rendering reads an UNSET register, the step enters the fault state instead and changes nothing
else (60 R352; that the rest is kept is log 12, and the draw counter is the model's, log 7). -/
def RendersFrame (start stop : Nat) (b : Block) (s : State) : Prop :=
  ∃ k1 k2, match segmentUnit k1 k2 start stop b s with
    | .ok t => step s = .next { t with block := some { b with cursor := b.cursor + 1 }, draws := s.draws + 1 }
    | .error _ => step s = .next { s with fault := some .unsetRead }

/-- A frame of `s` reads an UNSET noise seed, LFO countdown or oscillator phase (40 R132, R136; 46 R293, R294). -/
def UnsetInFrame (s : State) : Prop :=
  s.written.noiseSeed = false ∨ s.written.lfoStep = false ∨
    ∃ i, voiceIsActive (getVoice s.voices i) = true ∧
      ((getVoice s.voices i).osc1.cycleSet = false ∨ (getVoice s.voices i).osc2.cycleSet = false)

/-! ## The operands of the host commands (00 R14; 10 R45; 47 R330) -/

/-- A finite value above 0.0. -/
def FinitePositive (x : F32) : Prop := fisFinite x = true ∧ flt 0x00000000#32 x = true

/-- A value in `[0, 1)`. -/
def InUnitOpen (x : F32) : Prop := fle 0x00000000#32 x = true ∧ flt x 0x3F800000#32 = true

/-- A value in `[0, 1]`. -/
def InUnitClosed (x : F32) : Prop := fle 0x00000000#32 x = true ∧ fle x 0x3F800000#32 = true

/-- The legal values of a snapshot (10 R45). Those of the filter's fields count only when the filter is present; which
fields these are is the model's reading (log 28, DEDUCED). -/
structure LegalSnapshot (filterPresent : Bool) (p : Snapshot) : Prop where
  numVoices           : 1 ≤ p.numVoices ∧ p.numVoices ≤ 8
  glideMode           : p.glideMode = 0 ∨ p.glideMode = 1 ∨ p.glideMode = 2
  lfoWaveform         : p.lfoWaveform = 0 ∨ p.lfoWaveform = 1 ∨ p.lfoWaveform = 2 ∨ p.lfoWaveform = 3
  tune                : FinitePositive p.tune
  detune              : FinitePositive p.detune
  envAttack           : InUnitOpen p.envAttack
  envDecay            : InUnitOpen p.envDecay
  envRelease          : InUnitOpen p.envRelease
  envSustain          : InUnitClosed p.envSustain
  glideRate           : InUnitClosed p.glideRate
  lfoInc              : fle 0x00000000#32 p.lfoInc = true ∧ flt p.lfoInc 0x40C90FDB#32 = true
  oscMix              : fisFinite p.oscMix = true
  volumeTrim          : fisFinite p.volumeTrim = true
  noiseMix            : fisFinite p.noiseMix = true
  outputLevel         : fisFinite p.outputLevel = true
  glideBend           : fisFinite p.glideBend = true
  vibrato             : fisFinite p.vibrato = true
  pwmDepth            : fisFinite p.pwmDepth = true
  filterAttack        : filterPresent = true → InUnitOpen p.filterAttack
  filterDecay         : filterPresent = true → InUnitOpen p.filterDecay
  filterRelease       : filterPresent = true → InUnitOpen p.filterRelease
  filterSustain       : filterPresent = true → InUnitClosed p.filterSustain
  filterQ             : filterPresent = true → FinitePositive p.filterQ
  filterKeyTracking   : filterPresent = true → fisFinite p.filterKeyTracking = true
  filterLFODepth      : filterPresent = true → fisFinite p.filterLFODepth = true
  filterEnvDepth      : filterPresent = true → fisFinite p.filterEnvDepth = true
  velocitySensitivity : filterPresent = true → fisFinite p.velocitySensitivity = true

/-- The magnitude of a finite binary64 value in units of 2^-1074, from its exponent field and its fraction. -/
def units64 (e m : Nat) : Nat := if e = 0 then m else (m + 2 ^ 52) * 2 ^ (e - 1)

/-- How far a finite binary32 value's magnitude is from `n` units of 2^-1074. -/
def distance64 (n : Nat) (y : F32) : Nat := ((n : Int) - (fixedMag y * 2 ^ 925 : Nat)).natAbs

/-- `r` is the binary32 value nearest to the binary64 value `x`, ties to even (00 R14 (b), (f)): a NaN for a NaN, an
infinity for an infinity and from 2^128 - 2^103 on (which is (2^25 - 1) * 2^1177 of these units), else the finite value
that no other is nearer than, with an even fraction where another is as near; the sign is that of `x`. -/
def NearestF32 (x : BitVec 64) (r : F32) : Prop :=
  ∃ e m, e = x.toNat / 2 ^ 52 % 2 ^ 11 ∧ m = x.toNat % 2 ^ 52 ∧
    if e = 2047 ∧ m ≠ 0 then fisNaN r = true
    else fsign r = x.msb ∧
      if e = 2047 ∨ (2 ^ 25 - 1) * 2 ^ 1177 ≤ units64 e m then fisInf r = true
      else fisFinite r = true ∧ ∀ y, fisFinite y = true →
        distance64 (units64 e m) r ≤ distance64 (units64 e m) y ∧
          (distance64 (units64 e m) y = distance64 (units64 e m) r → fmag y ≠ fmag r → r.toNat % 2 = 0)

/-- `sr` is `f32(rate)`: a binary32 argument as it is, a binary64 one rounded (47 R330; that the argument is one of the
two is 30 R105, and that `FTZ` leaves the result alone is log 26, DEDUCED). -/
def RoundedRate : Number → F32 → Prop
  | .f32 x, sr => sr = x
  | .f64 x, sr => NearestF32 x sr

end Sys2Proof.Claims

open Sys2Proof Sys2Proof.Machine Sys2Proof.Claims

/-! ## Encoding -/

/-- 30 R100, R106, R107, R109: decoding the encoding of a well-formed instruction gives it back, with every operand
at every value; every instruction has a record or a command. -/
def Obligations.DecodeEncodeRoundTrip : Prop :=
  (∀ i bytes, i.wellFormed = true → encode i = some bytes → decode bytes = .ok i) ∧
    (∀ i c, encodeCommand i = some c → commandInstr c = i) ∧
    ∀ i, (encode i).isSome = true ∨ (encodeCommand i).isSome = true

/-- 30 R100, R102, R106: what the decoder reads is well-formed, and encoding it gives the record back with bit 7 of
both data bytes cleared. That the bits a row ignores (the channel, an ignored velocity, unused data bytes) are kept in
the decoded instruction and so come back is no rule of the spec: it is the model's choice (log 17, DESIGN CHOICE). -/
def Obligations.DecodedRecordEncodesBack : Prop :=
  ∀ b0 b1 b2 i, decode [b0, b1, b2] = .ok i →
    i.wellFormed = true ∧ encode i = some [b0, b1 &&& 0x7F, b2 &&& 0x7F]

/-- 30 R107: the decoder selects the first row of the table that the record's word matches, and some row always
matches. -/
def Obligations.DecoderSelectsFirstMatchingRow : Prop :=
  ∀ b0 b1 b2, ∃ i, decode [b0, b1, b2] = .ok i ∧ firstRow (recordWord b0 b1 b2) = some i.mnemonic

/-- 30 R102, R103, R104: missing data bytes are 0, data bytes are masked, a longer record is not decoded and an empty
one is no event. -/
def Obligations.RecordLengthDecidesFirst : Prop :=
  (∀ b0, decode [b0] = decode [b0, 0, 0]) ∧ (∀ b0 b1, decode [b0, b1] = decode [b0, b1, 0]) ∧
    (∀ b0 b1 b2, decode [b0, b1, b2] = decode [b0, b1 &&& 0x7F, b2 &&& 0x7F]) ∧
    (∀ bytes, 3 < bytes.length → decode bytes = .error .longRecord) ∧ decode [] = .error .emptyRecord

/-- 95 §3.8 V-S6-1: the spec's sample records decode to the instructions it lists. -/
def Obligations.SampleRecordsDecode : Prop :=
  decode [0x90, 0x3C, 0x64] = .ok (.noteOn 0 60 100) ∧ decode [0x9F, 0x3C, 0x64] = .ok (.noteOn 15 60 100) ∧
    decode [0x90, 0x3C, 0x00] = .ok (.noteOnV0 0 60) ∧ decode [0x80, 0x3C, 0x40] = .ok (.noteOff 0 60 64) ∧
    decode [0xE0, 0x00, 0x40] = .ok (.pitchBend 0 8192) ∧ decode [0xE0, 0x7F, 0x7F] = .ok (.pitchBend 0 16383) ∧
    decode [0xB0, 0x40, 0x7F] = .ok (.ccSustain 0 127) ∧ decode [0xB0, 0x01, 0x40] = .ok (.ccModwheel 0 64) ∧
    decode [0xB0, 0x7F, 0x00] = .ok (.ccAllNotesOff 0 127 0) ∧ decode [0xB0, 0x77, 0x00] = .ok (.ccOther 0 119 0) ∧
    decode [0xC0, 0x05] = .ok (.programChange 0 5 0) ∧ decode [0xA0, 0x3C, 0x64] = .ok (.polyPressure 0 60 100) ∧
    decode [0xD0, 0x40] = .ok (.channelPressure 0 64 0) ∧ decode [0xF8] = .ok (.system 8 0 0) ∧
    decode [0x3C, 0x40] = .ok (.dataFirst 60 64 0) ∧ decode [0xF0, 0x01, 0x02, 0x03] = .error .longRecord

/-- 30 R101: the channel selects nothing. Two records that differ in the low nibble of byte 0 act identically. -/
def Obligations.ChannelSelectsNothing : Prop :=
  ∀ b0 c0 rest s, statusNibble b0 = statusNibble c0 → applyEvent (b0 :: rest) s = applyEvent (c0 :: rest) s

/-- 44 R230: decoding by the table and running the instruction does what the dispatch of R230 does, for every
nonempty record. -/
def Obligations.TableAndDispatchAgree : Prop :=
  ∀ bytes s, bytes ≠ [] → applyEvent bytes s = mapNext afterEvent (eventApply bytes s)

/-! ## A step -/

/-- 46 R291, R296, R297; 47 R320 to R324; 44 R230: what a step does around `exec` and around a frame. In a block: the
event that is due is applied and `evIndex` moves on, a record of more than three bytes without an effect. Else the frame
at the cursor is rendered with `channels`, after the prologue when it is the first of its segment and before the
epilogue when it is the last, and `cursor` moves on by one. After the last frame the block ends. Between blocks: the next
command is taken, and with none nothing happens (60 R364; the command queue, the reply and the draw counter are the
model's, logs 1, 2, 7, 27). -/
def Obligations.StepRunsDecodedInstruction : Prop :=
  (∀ s b e i, s.fault = none → s.block = some b → b.events[b.evIndex]? = some e → e.offset ≤ b.cursor →
    decode e.bytes = .ok i →
      step s = onNext (fun t =>
        { t with block := some { b with evIndex := b.evIndex + 1 }, draws := s.draws + 1 }) (exec i s)) ∧
  (∀ s b e, s.fault = none → s.block = some b → b.events[b.evIndex]? = some e → e.offset ≤ b.cursor →
    3 < e.bytes.length →
      step s = .next { s with block := some { b with evIndex := b.evIndex + 1 }, draws := s.draws + 1 }) ∧
  (∀ s b start stop, s.fault = none → s.block = some b → SegmentStartsAt b start → SegmentStopsAt b stop →
    b.cursor < stop → RendersFrame start stop b s) ∧
  (∀ s b, s.fault = none → s.block = some b → b.events[b.evIndex]? = none → b.frames ≤ b.cursor →
    step s = .next { s with block := none, reply := .done }) ∧
  (∀ s c rest, s.fault = none → s.block = none → s.commands = c :: rest →
    step s = onNext (fun t => { t with draws := s.draws + 1 }) (exec (commandInstr c) { s with commands := rest })) ∧
  ∀ s, s.fault = none → s.block = none → s.commands = [] → step s = .next s

/-- 60 R352, R359: in the fault state the machine has no further step, and no command has an effect. -/
def Obligations.StuckMachineHasNoStep : Prop :=
  ∀ s c, s.fault = some c →
    step s = .fault (.stuck c) ∧ ∀ cmd, exec (commandInstr cmd) s = .fault (.stuck c)

/-- 47 R324: a record of more than three bytes changes nothing but the scheduler's position (and the model's draw
counter, log 7). -/
def Obligations.LongRecordChangesNothing : Prop :=
  ∀ bytes s, 3 < bytes.length →
    applyEvent bytes s = .next { s with block := s.block.map advanceEvent, draws := s.draws + 1 }

/-- 60 R353, R365: nothing is refused by the model, and the only event that has no next state is a note that hangs:
a note-on, or in mono mode a note-off or a pedal-up. -/
def Obligations.OnlyNotesCanHang : Prop :=
  (∀ s r, step s ≠ .refused r) ∧
    ∀ i s r, s.fault = none → exec i s = .fault r →
      r = .hang ∧ ((∃ ch n vel, i = .noteOn ch n vel) ∨ (s.snapshot.numVoices = 1 ∧ (releasedNote i).isSome = true))

/-! ## Events that touch no voice -/

/-- 44 R243, R246: the ignored records change nothing. -/
def Obligations.IgnoredRecordsChangeNothing : Prop :=
  (∀ ch c val s, exec (.ccOther ch c val) s = .next s) ∧
    (∀ ch d1 d2 s, exec (.polyPressure ch d1 d2) s = .next s) ∧
    (∀ ch d1 d2 s, exec (.channelPressure ch d1 d2) s = .next s) ∧
    (∀ low d1 d2 s, exec (.system low d1 d2) s = .next s) ∧
    ∀ d0 d1 d2 s, exec (.dataFirst d0 d1 d2) s = .next s

/-- 44 R241: the mod wheel is `MODW_K * float(val * val)` and nothing else changes; at 127 it is 0x3DA52934. -/
def Obligations.ModWheelIsSquared : Prop :=
  (∀ ch val s, exec (.ccModwheel ch val) s =
    .next { s with
      modWheel := fmul (stepKey s) 0x36A7C5AC#32 (fofInt (val.toNat * val.toNat : Nat)),
      written := { s.written with modWheel := true } }) ∧
  ∀ ch s, exec (.ccModwheel ch 127) s =
    .next { s with modWheel := 0x3DA52934#32, written := { s.written with modWheel := true } }

/-- 44 R244: the pitch-bend ratio is `Exp(BEND_K * float(bend - 8192))` and nothing else changes; at the centre it is
exactly 1.0. -/
def Obligations.PitchBendSetsRatio : Prop :=
  (∀ ch bend s, exec (.pitchBend ch bend) s =
    .next { s with
      pitchBend := Config.exp (fmul (stepKey s) 0xB76C97A1#32 (fofInt ((bend.toNat : Int) - 8192))),
      written := { s.written with pitchBend := true } }) ∧
  ∀ ch s, exec (.pitchBend ch 8192) s =
    .next { s with pitchBend := 0x3F800000#32, written := { s.written with pitchBend := true } }

/-- 44 R245: a program change appends its notification and changes nothing else. -/
def Obligations.ProgramChangeNotifies : Prop :=
  ∀ ch prog d2 s, exec (.programChange ch prog d2) s =
    .next { s with notifications := s.notifications ++ [.programChange prog] }

/-- 44 R242; 43 R201: all-notes-off silences every voice, clears the pedal and changes nothing else, and no voice is
active afterwards. -/
def Obligations.AllNotesOffSilencesEveryVoice : Prop :=
  ∀ ch c val s, ∃ vs,
    exec (.ccAllNotesOff ch c val) s =
        .next { s with
          voices := vs, sustainPedalPressed := false,
          written := { s.written with sustainPedalPressed := true } } ∧
      ∀ i, getVoice vs i = silencedVoice s.params.filterPresent (getVoice s.voices i) ∧
        voiceIsActive (getVoice vs i) = false

/-- 44 R240: a controller value of 64 or more presses the pedal and changes nothing else. -/
def Obligations.PedalDownSetsFlag : Prop :=
  ∀ ch val s, 64 ≤ val.toNat → exec (.ccSustain ch val) s =
    .next { s with sustainPedalPressed := true, written := { s.written with sustainPedalPressed := true } }

/-! ## Notes -/

/-- 44 R233, R234, R240: in a machine whose registers hold values, a note-off (and, for the SUSTAINED voices, a pedal-up)
whose note is not sounding on voice 0 of a mono engine with a queued note releases every voice that holds it, or with
the pedal down marks it SUSTAINED, and changes nothing else. -/
def Obligations.NoteOffReleasesMatchingVoices : Prop :=
  ∀ i n s, registersSet s = true → releasedNote i = some n →
    (s.snapshot.numVoices ≠ 1 ∨ s.voices.v0.note ≠ n ∨ queueView s.voices = []) →
    ∃ vs, exec i s = .next { s with sustainPedalPressed := pedalSeen n s, voices := vs } ∧
      ∀ j, getVoice vs j = scannedVoice s.params.filterPresent (pedalSeen n s) n (getVoice s.voices j)

/-- 44 R234, R240; 45 R266, R268: in mono mode a note-off of the note voice 0 holds pops the most recently queued note
`q`, from the lowest slot that holds one, and retunes voice 0 to it without retriggering, when the period of `q` is
defined (45 R260) and the registers hold values; then the scan releases whatever still holds the note. -/
def Obligations.MonoNoteOffPopsQueue : Prop :=
  ∀ i n s q rest p, registersSet s = true → releasedNote i = some n → s.snapshot.numVoices = 1 → s.voices.v0.note = n →
    queueView s.voices = q :: rest → calcPeriod (0 :: stepKey s) s.snapshot 0 q = .ok p →
    ∃ vs slot u, exec i s = .next { s with sustainPedalPressed := pedalSeen n s, voices := vs, lastNote := q } ∧
      slot ≠ 0 ∧ (getVoice s.voices slot).note = q ∧
      (∀ j : Fin 8, 0 < j → j < slot → (getVoice s.voices j).note ≤ 0) ∧
      Retuned s p q (-1) s.voices.v0 u ∧
      ∀ j, getVoice vs j = scannedVoice s.params.filterPresent (pedalSeen n s) n
        (if j = 0 then u else if j = slot then { getVoice s.voices slot with note := 0 } else getVoice s.voices j)

/-- 44 R232; 45 R262, R265: a note-on that is no legato retune starts the voice the allocator chooses (voice 0 in mono
mode), when the period is defined (45 R260), the registers hold values and the voice's first oscillator is sound
(70 R384), and changes no other voice and no other register but `lastNote`. -/
def Obligations.NoteOnStartsVoice : Prop :=
  ∀ ch n vel s i p, registersSet s = true → (s.snapshot.numVoices = 1 → s.voices.v0.note ≤ 0) →
    (if s.snapshot.numVoices = 1 then i = 0 else findFreeVoice s.snapshot s.voices = .ok i) →
    calcPeriod (0 :: stepKey s) s.snapshot i n.toNat = .ok p → oscSafe (getVoice s.voices i).osc1 = true →
    ∃ u, Started s p n.toNat vel.toNat (getVoice s.voices i) u ∧
      exec (.noteOn ch n vel) s = .next { s with voices := setVoice s.voices i u, lastNote := n.toNat }

/-- 44 R232; 45 R266, R267: in mono mode with a note held, a note-on pushes the held note onto the queue and retunes
voice 0 without retriggering, when the period is defined (45 R260) and the registers hold values; nothing else changes
but `lastNote`. -/
def Obligations.MonoLegatoNoteOnRetunes : Prop :=
  ∀ ch n vel s p, registersSet s = true → s.snapshot.numVoices = 1 → 0 < s.voices.v0.note →
    calcPeriod (0 :: stepKey s) s.snapshot 0 n.toNat = .ok p →
    ∃ vs, exec (.noteOn ch n vel) s = .next { s with voices := vs, lastNote := n.toNat } ∧
      Retuned s p n.toNat vel.toNat s.voices.v0 vs.v0 ∧
      ∀ j : Fin 8, j ≠ 0 →
        getVoice vs j = pushedSlot s.params.filterPresent (getVoice s.voices (j - 1)) (getVoice s.voices j)

/-- 45 R260; 60 R365: in a machine whose registers hold values, a note-on whose doubling loop cannot reach the floor has
no next state. -/
def Obligations.NoteOnHangsWithoutPeriod : Prop :=
  ∀ ch n vel s i, registersSet s = true →
    (if s.snapshot.numVoices = 1 then i = 0 else findFreeVoice s.snapshot s.voices = .ok i) →
    calcPeriod (0 :: stepKey s) s.snapshot i n.toNat = .error .hang → exec (.noteOn ch n vel) s = .fault .hang

/-! ## Allocation -/

/-- 45 R260 (the doubling invariant of 95 §3.1): a period is `tune * Exp(-SEMI * (float(note) + ANALOG * float(v)))`
doubled some number of times, every smaller number of doublings leaving it or its detuned partner below 6.0; it is
never below 6.0, nor is its detuned partner. -/
def Obligations.PeriodReachesFloor : Prop :=
  ∀ key k' p v n x, calcPeriod key p v n = .ok x →
    flt x 0x40C00000#32 = false ∧ flt (fmul k' x p.detune) 0x40C00000#32 = false ∧
      ∃ k : Nat → Key, ∃ j,
        DoublesTo p.detune j
          (fmul (k 3) p.tune (Config.exp (fmul (k 2) 0xBD6C9820#32
            (fadd (k 1) (fofInt n) (fmul (k 0) 0x3B03126F#32 (fofInt v.val)))))) x

/-- 45 R260; 60 R365: the model's bound on the doubling loop is exact. A loop that the model reports as hanging does
not end after any number of turns (log 14: DEDUCED). -/
def Obligations.HangIsExact : Prop :=
  ∀ k k' detune x turns, doubleToFloor k detune doublingFuel x = .error .hang →
    doubleToFloor k' detune turns x = .error .hang

/-- 45 R262, R263: when the levels and targets it reads hold values, the allocator returns a voice below `numVoices`; if
some voice there is out of attack with a level below 100.0, it returns the quietest such voice, the lowest index among
equals, and otherwise voice 0. Hence it never returns an active voice while an inactive one is out of attack. -/
def Obligations.AllocatorPicksQuietestOutOfAttack : Prop :=
  ∀ p vs, 1 ≤ p.numVoices → p.numVoices ≤ 8 →
    (∀ j : Fin 8, (j.val : Int) < p.numVoices →
      (getVoice vs j).env.levelSet = true ∧ (getVoice vs j).env.targetSet = true) →
    ∃ r, findFreeVoice p vs = .ok r ∧ (r.val : Int) < p.numVoices ∧
      (∀ j : Fin 8, (j.val : Int) < p.numVoices → envIsInAttack (getVoice vs j).env = false →
        flt (getVoice vs j).env.level 0x42C80000#32 = true →
        envIsInAttack (getVoice vs r).env = false ∧
          fle (getVoice vs r).env.level (getVoice vs j).env.level = true ∧
          (j < r → flt (getVoice vs r).env.level (getVoice vs j).env.level = true) ∧
          (voiceIsActive (getVoice vs j) = false → voiceIsActive (getVoice vs r) = false)) ∧
      ((∀ j : Fin 8, (j.val : Int) < p.numVoices → envIsInAttack (getVoice vs j).env = true ∨
        flt (getVoice vs j).env.level 0x42C80000#32 = false) → r = 0)

/-- 45 R267, R268, R269: a push puts voice 0's note at the front of the queue and drops slot 7; a pop removes the
front entry and returns it: the lowest of slots 1 to 7 that holds a note changes in its `note` alone, which becomes 0,
and every other voice is as it was; with no entry it returns 0 and changes nothing; the release scan removes every
entry equal to its note. Both complete when the notes they read hold values. -/
def Obligations.QueueIsAStack : Prop :=
  ∀ fp vs, (∀ i, (getVoice vs i).written.note = true) →
    (∃ ws, shiftQueuedNotes fp vs = .ok ws ∧ queueView ws =
      ([vs.v0.note, vs.v1.note, vs.v2.note, vs.v3.note, vs.v4.note, vs.v5.note, vs.v6.note].filter (0 < ·))) ∧
    (queueView vs = [] → nextQueuedNote vs = .ok (0, vs)) ∧
    (∀ q rest, queueView vs = q :: rest →
      ∃ ws slot, nextQueuedNote vs = .ok (q, ws) ∧ queueView ws = rest ∧ slot ≠ 0 ∧ (getVoice vs slot).note = q ∧
        (∀ j : Fin 8, 0 < j → j < slot → (getVoice vs j).note ≤ 0) ∧
        ∀ i, getVoice ws i = if i = slot then { getVoice vs slot with note := 0 } else getVoice vs i) ∧
    ∀ pedal n, queueView (mapVoices (fun _ v => releaseMatching fp pedal n v) vs) = (queueView vs).filter (· ≠ n)

/-- 43 R204: the pan position of a note: -1.0 up to note 36, 0.0 at 60, 1.0 from 84 on, and always in [-1, 1]. -/
def Obligations.PanPositionInRange : Prop :=
  ∀ k (n : BitVec 7),
    fle 0xBF800000#32 (panOf k n.toNat) = true ∧ fle (panOf k n.toNat) 0x3F800000#32 = true ∧
      (n.toNat ≤ 36 → panOf k n.toNat = 0xBF800000#32) ∧ (n.toNat = 60 → panOf k n.toNat = 0x00000000#32) ∧
      (84 ≤ n.toNat → panOf k n.toNat = 0x3F800000#32)

/-! ## Host commands -/

/-- 47 R330; 00 R14 (f): `ALLOCATE` rounds its rate to the nearest binary32 value, ties to even, and takes a binary32
argument as it is. It accepts a finite positive rounded rate and a block size of at least 0 and writes the rates, the
block size and the life state; else it refuses and changes nothing but its reply (the reply is the model's, log 2). -/
def Obligations.AllocateSetsRate : Prop :=
  ∀ rate bs s, s.fault = none → ∃ sr, RoundedRate rate sr ∧
    if fisFinite sr = true ∧ flt 0x00000000#32 sr = true ∧ 0 ≤ bs then
      ∃ vs, exec (.allocate rate bs) s =
          .next { s with sampleRate := sr, voices := vs, blockSize := bs, lifecycle := .allocated, reply := .done } ∧
        ∀ i, getVoice vs i =
          if s.params.filterPresent then
            { getVoice s.voices i with filter := { (getVoice s.voices i).filter with sampleRate := sr } }
          else getVoice s.voices i
    else exec (.allocate rate bs) s = .next { s with reply := .refused .allocArgs }

/-- 47 R331: `DEALLOCATE` leaves the core UNALLOCATED and changes nothing else (but its reply, log 2). -/
def Obligations.DeallocateEndsLifetime : Prop :=
  ∀ s, s.fault = none → exec .deallocate s = .next { s with lifecycle := .unallocated, reply := .done }

/-- 47 R332; 10 R61: `RESET` silences every voice and writes the reset values, makes an allocated core READY, and
changes nothing else (but its reply, log 2). -/
def Obligations.ResetWritesResetValues : Prop :=
  ∀ s, s.fault = none →
    ∃ vs, exec .reset s =
        .next { s with
          voices := vs, noiseSeed := 22222, pitchBend := 0x3F800000#32, sustainPedalPressed := false,
          lfo := 0x00000000#32, lfoStep := 0, modWheel := 0x00000000#32, lastNote := 0,
          filterZip := 0x00000000#32, vibratoMod := 0x3F800000#32, pwm := 0x3F800000#32,
          written := EngineWritten.all,
          lifecycle := if s.lifecycle = .unallocated then .unallocated else .ready, reply := .done } ∧
      ∀ i, getVoice vs i = silencedVoice s.params.filterPresent (getVoice s.voices i)

/-- 10 R60, R61; 70 R383, R384: a core just constructed that is given `ALLOCATE` at 44100 Hz and `RESET` is in the
state `State.reset`, but for the block size and the model's own reply and draw counter (logs 2, 3, 7). -/
def Obligations.BootOrderReachesReset : Prop :=
  ∀ bs : Int, 0 ≤ bs →
    core.run 2 { State.construction with commands := [.allocate (.f32 0x472C4400#32) bs, .reset] } =
      .next { State.reset with blockSize := bs, reply := .done, draws := 2 }

/-- 47 R320, R321; 10 R45: a READY core accepts a block with a legal snapshot, one or two channels and a legal event
list: it loads the snapshot, clears the notifications and starts the scheduler at 0; no other register changes. The emptied
output lists and the pending reply are the model's (logs 2, 15). -/
def Obligations.ProcessBlockStartsScheduler : Prop :=
  ∀ p events frames channels s, s.fault = none → s.lifecycle = .ready →
    LegalSnapshot s.params.filterPresent p → (channels = 1 ∨ channels = 2) →
    (∀ e ∈ events, e.bytes ≠ [] ∧ e.offset < frames) → events.Pairwise (fun a b => a.offset ≤ b.offset) →
    exec (.processBlock p events frames channels) s =
      .next { s with
        snapshot := p, notifications := [],
        block := some { events := events, frames := frames, channels := channels, cursor := 0, evIndex := 0 },
        out := { ch0 := [], ch1 := [] }, reply := .pending }

/-- 47 R320, R325; 60 R353; 10 R45: a READY core refuses a block with the first reason that applies, in the order: the
snapshot, the channels, an empty record, an offset out of range, an offset out of order. A refused block changes nothing
but the reply. A legal snapshot is one in the ranges of 10 R45 (the fields of an absent filter ignored, log 28). -/
def Obligations.ProcessBlockRefusalOrder : Prop :=
  ∀ p events frames channels s, s.fault = none → s.lifecycle = .ready →
    (¬ LegalSnapshot s.params.filterPresent p →
      exec (.processBlock p events frames channels) s = .next { s with reply := .refused .paramRange }) ∧
    (LegalSnapshot s.params.filterPresent p →
      (channels ≠ 1 ∧ channels ≠ 2 →
        exec (.processBlock p events frames channels) s = .next { s with reply := .refused .channels }) ∧
      (channels = 1 ∨ channels = 2 →
        ((∃ e ∈ events, e.bytes = []) →
          exec (.processBlock p events frames channels) s = .next { s with reply := .refused .eventEmpty }) ∧
        ((∀ e ∈ events, e.bytes ≠ []) →
          ((∃ e ∈ events, frames ≤ e.offset) →
            exec (.processBlock p events frames channels) s = .next { s with reply := .refused .eventRange }) ∧
          ((∀ e ∈ events, e.offset < frames) → ¬ events.Pairwise (fun a b => a.offset ≤ b.offset) →
            exec (.processBlock p events frames channels) s = .next { s with reply := .refused .eventOrder }))))

/-- 47 R320; 60 R352; 70 R383: a block given to a core that is not READY puts it into the fault state, from which no step
leads. -/
def Obligations.BlockBeforeReadyFaults : Prop :=
  ∀ p events frames channels s, s.fault = none → s.lifecycle ≠ .ready →
    exec (.processBlock p events frames channels) s = .next { s with fault := some .notReady } ∧
      step { s with fault := some .notReady } = .fault (.stuck .notReady)

/-! ## Rendering -/

/-- 46 R291, R293, R294: a voice that is inactive at a frame is neither rendered nor ticked; the frame leaves it as it
is. -/
def Obligations.FrameLeavesInactiveVoices : Prop :=
  ∀ k channels s t i, frame k channels s = .ok t → voiceIsActive (getVoice s.voices i) = false →
    getVoice t.voices i = getVoice s.voices i

/-- 46 R293: in a machine whose registers hold values and with no active voice a frame completes and writes +0.0 on
every channel, whatever the noise gain is, when the output level is not negative. -/
def Obligations.SilentFrameWritesZero : Prop :=
  ∀ k channels s, registersSet s = true → (∀ i, voiceIsActive (getVoice s.voices i) = false) →
    fisFinite s.snapshot.outputLevel = true → fsign s.snapshot.outputLevel = false →
    ∃ t, frame k channels s = .ok t ∧ t.voices = s.voices ∧
      t.out = if channels = 2 then { ch0 := s.out.ch0 ++ [0x00000000#32], ch1 := s.out.ch1 ++ [0x00000000#32] }
        else { ch0 := s.out.ch0 ++ [0x00000000#32], ch1 := s.out.ch1 }

/-- 20 R82; 40 R132; 43 R202; 46 R293; 70 R391: a frame, after its LFO step, steps the noise seed exactly once, renders
every active voice exactly once in index order with the frame's scaled noise sample, mixes it through its pan gains, and
writes one new element to channel 0 and, in stereo, one to channel 1: the mix scaled by the output level, or half the
sum of both. It rewrites no element. -/
def Obligations.FrameWritesOneElement : Prop :=
  ∀ key channels s t, frame key channels s = .ok t →
    t.noiseSeed = s.noiseSeed * 196314165 + 907633515 ∧
    ∃ k : Nat → Key, ∃ u noise mix left right, AfterLfoStep s u ∧
      noise = fmul (k 1) (fdiv (k 0) (fofInt (((t.noiseSeed >>> 7).toNat : Int) - 16777216)) 0x4B800000#32)
        s.snapshot.noiseMix ∧
      Mixed s.params.filterPresent noise ((voiceList u.voices).zip (voiceList t.voices))
        (0x00000000#32, 0x00000000#32) mix ∧
      left = fmul (k 2) mix.1 s.snapshot.outputLevel ∧ right = fmul (k 3) mix.2 s.snapshot.outputLevel ∧
      t.out =
        if channels = 2 then { ch0 := s.out.ch0 ++ [left], ch1 := s.out.ch1 ++ [right] }
        else { ch0 := s.out.ch0 ++ [fmul (k 5) (fadd (k 4) left right) 0x3F000000#32], ch1 := s.out.ch1 }

/-- 40 R132: the noise sample is `temp * 2^-24` exactly (in units of 2^-149), with `temp` from -2^24 to 2^24 - 1. -/
def Obligations.NoiseSampleIsExact : Prop :=
  ∀ k seed, fisFinite (noiseSample k seed) = true ∧
    fixedVal (noiseSample k seed) = ((seed.toNat / 128 : Nat) - 16777216 : Int) * 2 ^ 125 ∧
    -(2 ^ 24) ≤ ((seed.toNat / 128 : Nat) : Int) - 16777216 ∧ ((seed.toNat / 128 : Nat) : Int) - 16777216 < 2 ^ 24

/-- 46 R290, R294, R297; 47 R321: a frame counts the LFO down by one. When the count is over it is a tick: the count is
`LFO_MAX` again, the phase advances and wraps once, and the multipliers and the smoothed filter modulation are those of
the new phase's shape. Otherwise the LFO registers keep their values. Of the other engine registers a frame changes the
noise seed only (40 R132). -/
def Obligations.FrameCountsLfoDown : Prop :=
  ∀ k channels s t, frame k channels s = .ok t →
    (t.lfoStep = if s.lfoStep ≤ 1 then (s.params.lfoMax : Int) else s.lfoStep - 1) ∧
    (s.lfoStep ≤ 1 → TickedRegisters s t) ∧
    (1 < s.lfoStep → t.lfo = s.lfo ∧ t.vibratoMod = s.vibratoMod ∧ t.pwm = s.pwm ∧ t.filterZip = s.filterZip) ∧
    t = { s with
      lfoStep := t.lfoStep, lfo := t.lfo, vibratoMod := t.vibratoMod, pwm := t.pwm, filterZip := t.filterZip,
      noiseSeed := t.noiseSeed, voices := t.voices, out := t.out,
      written := if s.lfoStep ≤ 1 then { s.written with vibratoMod := true, pwm := true } else s.written }

/-- 46 R294 (95 §3.6): with no vibrato, no pulse-width depth and no mod wheel, every tick whose LFO shape is finite
gives multipliers of exactly 1.0. -/
def Obligations.LfoIsNeutralWithoutDepth : Prop :=
  ∀ k s, feq s.modWheel 0x00000000#32 = true → feq s.snapshot.vibrato 0x00000000#32 = true →
    feq s.snapshot.pwmDepth 0x00000000#32 = true →
    fisFinite (lfoShape (1 :: k) s.snapshot.lfoWaveform (lfoAdvance (0 :: k) s)) = true →
    (tickRegisters k s).vibratoMod = 0x3F800000#32 ∧ (tickRegisters k s).pwm = 0x3F800000#32

/-- 46 R291, R292: the segment prologue gives every active voice its oscillator periods and its copies of the snapshot
and of the pitch bend, and leaves the others alone; it completes when the registers hold values and every active voice has
a period. -/
def Obligations.PrologueLoadsActiveVoices : Prop :=
  ∀ k s, registersSet s = true →
    (∀ i, voiceIsActive (getVoice s.voices i) = true → (getVoice s.voices i).written.period = true) →
    ∃ vs, prologue k s = .ok { s with voices := vs } ∧
      ∀ i v, v = getVoice s.voices i →
        if voiceIsActive v then
          ∃ k1 k2 x, x = fmul k1 v.period s.pitchBend ∧
            getVoice vs i =
              { v with
                osc1 := { v.osc1 with period := x },
                osc2 := { v.osc2 with period := fmul k2 x s.snapshot.detune },
                glideRate := s.snapshot.glideRate,
                filterQ := if s.params.filterPresent then s.snapshot.filterQ else v.filterQ,
                pitchBend := if s.params.filterPresent then s.pitchBend else v.pitchBend,
                filterEnvDepth := if s.params.filterPresent then s.snapshot.filterEnvDepth else v.filterEnvDepth,
                written := { v.written with
                  glideRate := true,
                  filterQ := s.params.filterPresent || v.written.filterQ,
                  pitchBend := s.params.filterPresent || v.written.pitchBend,
                  filterEnvDepth := s.params.filterPresent || v.written.filterEnvDepth } }
        else getVoice vs i = v

/-- 46 R296: the segment epilogue, in a machine whose registers hold values, resets the amplitude envelope and the filter
of every inactive voice and changes nothing else. -/
def Obligations.EpilogueResetsInactiveVoices : Prop :=
  ∀ s, registersSet s = true → ∃ vs, epilogue s = .ok { s with voices := vs } ∧
    ∀ i, getVoice vs i = closedVoice s.params.filterPresent (getVoice s.voices i)

/-- 43 R206; 42 R182; 46 R292, R294: an LFO tick writes the LFO registers; it moves an active voice's period and pan
toward their targets by the glide rate, loads its oscillators' modulation from the tick's multipliers and their new
periods, and with the filter steps its filter envelope once and tunes its filter to the modulated cutoff, clamped to
30 to 20000 Hz; it leaves an inactive voice alone, and writes nothing else. -/
def Obligations.TickGlidesActiveVoices : Prop :=
  ∀ k s t, lfoTick k s = .ok t →
    TickedRegisters s t ∧
      (∀ i v u, v = getVoice s.voices i → u = getVoice t.voices i →
        if voiceIsActive v then TickedVoice s t v u else u = v) ∧
      t = { s with
        lfoStep := t.lfoStep, lfo := t.lfo, vibratoMod := t.vibratoMod, pwm := t.pwm, filterZip := t.filterZip,
        voices := t.voices, written := { s.written with lfoStep := true, vibratoMod := true, pwm := true } }

/-- 40 R135, R136: `OSC.NEXT` advances the phase, starts a cycle when it is at most pi/4 and otherwise goes on inside the
cycle, reflecting at `phaseMax`; it completes when the fields it reads hold values. The first call of a reset
oscillator starts a cycle: it reads no register that may be UNSET, writes `phaseMax`, leaves the phase at -0.0 and
returns the amplitude less the mean term. -/
def Obligations.ResetOscillatorStartsCycle : Prop :=
  (∀ k o x u, oscNext k o = .ok (x, u) → o.cycleSet = true ∧ OscStep o x u) ∧
  (∀ k o, o.cycleSet = true → o.phaseMaxSet = true → ∃ x u, oscNext k o = .ok (x, u)) ∧
  ∀ k o, ∃ k' out u, oscNext k (oscReset o) = .ok (out, u) ∧ out = fsub k' o.amplitude u.dc ∧
    u.phase = 0x80000000#32 ∧ u.phaseMaxSet = true ∧ u.period = o.period ∧ u.amplitude = o.amplitude ∧
    u.modulation = o.modulation

/-- 40 R138: `OSC.SQUAREWAVE` puts the oscillator half a period after the other one: from the other's reflected phase
when that rises, from its phase when it falls, else from -pi. It completes when the fields of the other oscillator that
it reads hold values. -/
def Obligations.SquareWaveResynchronises : Prop :=
  (∀ k o other p u, oscSquareWave k o other p = .ok u → Resynchronised o other p u) ∧
    ∀ k o other p, other.cycleSet = true → (flt 0x00000000#32 other.inc = true → other.phaseMaxSet = true) →
      ∃ u, oscSquareWave k o other p = .ok u

/-- 42 R181, R183; 70 R387: `FILTER.RENDER` of a filter whose fields hold values gives the low-pass output and the new
integrators. After a filter reset it returns +0.0 for every finite input and keeps its integrators, until its
coefficients are written again. -/
def Obligations.ResetFilterIsSilent : Prop :=
  (∀ k x f, filterSet f = true → ∃ y u, filterRender k x f = .ok (y, u) ∧ FilterStep f x y u) ∧
    ∀ k x f, fisFinite x = true → filterRender k x (filterReset f) = .ok (0x00000000#32, filterReset f)

/-- 41 R162: a step of an envelope whose fields hold values completes and hands off exactly when level plus target
exceeds 3.0, and returns the level before the handoff's writes; the coefficients never change. -/
def Obligations.EnvelopeHandsOffAboveThreshold : Prop :=
  ∀ k e, envSet e = true → ∃ l u, envNext k e = .ok (l, u) ∧ EnvStep e l u

/-- 41 R168: in release, with a multiplier in [0, 1), a step never raises a level and never takes it below 0. -/
def Obligations.ReleaseNeverRaisesLevel : Prop :=
  ∀ k e, envSet e = true → e.target = 0x00000000#32 → fle 0x00000000#32 e.multiplier = true →
    flt e.multiplier 0x3F800000#32 = true → fisFinite e.level = true → fle 0x00000000#32 e.level = true →
    ∃ l u, envNext k e = .ok (l, u) ∧ fle 0x00000000#32 l = true ∧ fle l e.level = true

/-- 41 R161, R163, R164, R167: reset leads to IDLE, attack to ATTACK, and release out of the attack, from any phase. -/
def Obligations.EnvelopePhaseTransitions : Prop :=
  ∀ k e, envPhase (envReset e) = .idle ∧ envPhase (envRelease e) ≠ .attack ∧ (envRelease e).level = e.level ∧
    (e.levelSet = true → ∃ u, envAttack k e = .ok u ∧ envPhase u = .attack)

/-! ## Reads of UNSET registers -/

/-- 10 R60; 40 R132, R136; 60 R352 (93 I9): reading an UNSET oscillator phase, noise seed, LFO countdown, note or level
faults. An oscillator whose phase is UNSET has no next sample, and a frame that would read one, or an UNSET noise seed or
LFO countdown, is not rendered: the step that was to render it enters the fault state with `F_UNSET_READ` and changes
nothing else. So does a note-off, pedal-up or note-on that reads an UNSET note or level. That nothing is kept of what the
operation had done is the model's choice (log 12). -/
def Obligations.UnsetReadFaults : Prop :=
  (∀ k o, o.cycleSet = false → oscNext k o = .error .unset) ∧
  (∀ k channels s, UnsetInFrame s → frame k channels s = .error .unset) ∧
  (∀ s b stop, s.fault = none → s.block = some b → SegmentStopsAt b stop → b.cursor < stop → UnsetInFrame s →
    step s = .next { s with fault := some .unsetRead }) ∧
  (∀ i n s, releasedNote i = some n → (∃ j, (getVoice s.voices j).written.note = false) →
    exec i s = .next { s with fault := some .unsetRead }) ∧
  ∀ ch n vel s,
    (if s.snapshot.numVoices = 1 then s.voices.v0.written.note = false
      else ∃ j : Fin 8, (j.val : Int) < s.snapshot.numVoices ∧ (getVoice s.voices j).env.levelSet = false) →
    exec (.noteOn ch n vel) s = .next { s with fault := some .unsetRead }

/-! ## Invariants and whole-machine rules -/

/-- 47 R320 to R323, R326; 20 R82: from every state whose scheduler and output are in order, a step gives one whose
scheduler and output are in order. -/
def Obligations.SchedulerInvariantKept : Prop :=
  ∀ s t, schedulerOk s = true → step s = .next t → schedulerOk t = true

/-- 10 R31, R37: a step keeps every note legal: -1, 0 or a note number, and `lastNote` 0 or a note number. -/
def Obligations.NotesStayLegal : Prop :=
  ∀ s t, notesOk s = true → step s = .next t → notesOk t = true

/-- 10 R37; 46 R294: a step keeps the LFO countdown in `0 .. LFO_MAX`. -/
def Obligations.CountdownStaysInRange : Prop :=
  ∀ s t, countdownOk s = true → step s = .next t → countdownOk t = true

/-- 70 R384: no step of a machine whose registers are safe reads an UNSET register, and the registers stay safe. -/
def Obligations.UnsetRegistersAreNeverRead : Prop :=
  ∀ s t, schedulerOk s = true → unsetSafe s = true → step s = .next t →
    unsetSafe t = true ∧ (s.fault = none → t.fault ≠ some .unsetRead)

/-- The four invariants hold at reset and at construction (10 R60, R61). The construction half is the model's choice:
which bits of the state say that a register is UNSET, and the values beside them, are the model's (logs 4 and 6), as is
the snapshot before the first block (log 5). -/
def Obligations.InvariantsHoldAtReset : Prop :=
  (schedulerOk State.reset = true ∧ notesOk State.reset = true ∧ countdownOk State.reset = true ∧
    unsetSafe State.reset = true) ∧
  (schedulerOk State.construction = true ∧ notesOk State.construction = true ∧
    countdownOk State.construction = true ∧ unsetSafe State.construction = true)

/-- 10 R46; 70 R382: inside a block no step changes the snapshot, the sample rate, the block size, the life state, the
configuration or the host's command list. -/
def Obligations.SnapshotConstantInsideBlock : Prop :=
  ∀ s t, s.block ≠ none → step s = .next t →
    t.snapshot = s.snapshot ∧ t.sampleRate = s.sampleRate ∧ t.blockSize = s.blockSize ∧
      t.lifecycle = s.lifecycle ∧ t.params = s.params ∧ t.commands = s.commands

/-- 44 R231: inside a block only a program-change record adds a notification, and none is ever removed. -/
def Obligations.OnlyProgramChangeNotifies : Prop :=
  ∀ s t b, s.block = some b → step s = .next t →
    t.notifications = s.notifications ∨
      ∃ e ch prog d2, b.events[b.evIndex]? = some e ∧ decode e.bytes = .ok (.programChange ch prog d2) ∧
        t.notifications = s.notifications ++ [.programChange prog]

/-- 70 R382; 44 R242: no event changes the noise seed, the LFO phase or its countdown, the LFO multipliers or the output:
only frames and the host's `RESET` do. -/
def Obligations.EventsLeaveRenderRegisters : Prop :=
  ∀ bytes s t, applyEvent bytes s = .next t →
    t.noiseSeed = s.noiseSeed ∧ t.lfo = s.lfo ∧ t.lfoStep = s.lfoStep ∧ t.vibratoMod = s.vibratoMod ∧
      t.pwm = s.pwm ∧ t.filterZip = s.filterZip ∧ t.out = s.out ∧ t.reply = s.reply

/-- 47 R326: a step of a block with work left does exactly one unit of it, in order: it renders the next frame or
applies the next event, and changes neither the events nor the length nor the channels. -/
def Obligations.OneUnitPerStep : Prop :=
  ∀ s t b, s.block = some b → schedulerOk s = true → step s = .next t → t.fault = none → 0 < unitsLeft b →
    ∃ c, t.block = some c ∧ unitsLeft c + 1 = unitsLeft b ∧
      ((c = { b with cursor := b.cursor + 1 } ∧ ∃ x, t.out.ch0 = s.out.ch0 ++ [x]) ∨
        (c = { b with evIndex := b.evIndex + 1 } ∧ t.out = s.out))

/-- 47 R326; 70 R384, R396: a block in progress, in a machine whose scheduler and registers are sound, ends after its
frames and events have each been done once, with exactly `N` elements in every channel, or the machine hangs. -/
def Obligations.BlockEndsAfterItsUnits : Prop :=
  ∀ s b, s.fault = none → s.block = some b → schedulerOk s = true → unsetSafe s = true →
    (∃ t, core.run (unitsLeft b + 1) s = .next t ∧ t.fault = none ∧ t.block = none ∧ t.reply = .done ∧
      t.out.ch0.length = b.frames ∧ t.out.ch1.length = (if b.channels = 2 then b.frames else 0)) ∨
    core.run (unitsLeft b + 1) s = .fault .hang
end

