-- ==== Sys2Proof/Laws/Float.lean ====
section
/-!
SUPPORT. Facts of the binary32 operations that hold for every value of the free constants.
-/

namespace Sys2Proof.Machine

/-- The magnitude bits of a value built by `fmk` from 31 bits. -/
theorem fmag_fmk (neg : Bool) {m : Nat} (h : m < 2 ^ 31) : fmag (fmk neg m) = m := by
  cases neg <;> simp only [fmag, fmk, BitVec.toNat_ofNat] <;> norm_num <;> omega

/-- Every drawn NaN is a NaN (00 R14). -/
@[simp] theorem fisNaN_fnan (k : Key) : fisNaN (fnan k) = true := by
  have h : (fnan k).toNat % 2 ^ 31 =
      0x1FF * 2 ^ 22 + ((Config.nanDraw k).extractLsb' 0 22).toNat := by
    have h1 := ((Config.nanDraw k).extractLsb' 0 22).isLt
    have h2 := ((Config.nanDraw k).extractLsb' 22 1).isLt
    simp only [fnan, BitVec.toNat_append, BitVec.toNat_ofNat]
    rw [← Nat.shiftLeft_add_eq_or_of_lt (by omega), ← Nat.shiftLeft_add_eq_or_of_lt (by omega)]
    simp only [Nat.shiftLeft_eq]
    omega
  simp only [fisNaN, fmag, h, decide_eq_true_eq]
  omega

/-- A comparison with a NaN on the left is false (00 R8). -/
theorem flt_nan_left {x : F32} (y : F32) (h : fisNaN x = true) : flt x y = false := by simp [flt, h]

/-- A comparison with a NaN on the right is false (00 R8). -/
theorem flt_nan_right (x : F32) {y : F32} (h : fisNaN y = true) : flt x y = false := by simp [flt, h]

theorem fle_nan_left {x : F32} (y : F32) (h : fisNaN x = true) : fle x y = false := by simp [fle, h]

theorem fle_nan_right (x : F32) {y : F32} (h : fisNaN y = true) : fle x y = false := by simp [fle, h]

/-- Nothing is below itself (00 R8). -/
@[simp] theorem flt_irrefl (x : F32) : flt x x = false := by simp [flt]

/-- `<` is transitive (00 R8). -/
theorem flt_trans {x y z : F32} (h1 : flt x y = true) (h2 : flt y z = true) : flt x z = true := by
  simp only [flt, Bool.and_eq_true, Bool.not_eq_true', decide_eq_true_eq] at *
  exact ⟨⟨h1.1.1, h2.1.2⟩, h1.2.trans h2.2⟩

/-- A flushed NaN is a NaN, and flushing makes none. -/
@[simp] theorem fisNaN_fflush (x : F32) : fisNaN (fflush x) = fisNaN x := by
  unfold fflush
  split
  · rename_i h
    have hx : fisNaN x = false := by
      simp only [fisSubnormal, Bool.and_eq_true, decide_eq_true_eq] at h
      simp only [fisNaN, decide_eq_false_iff_not]
      omega
    split
    · rw [hx]; cases fsign x <;> rfl
    · rfl
  · rfl

/-- A product with a NaN is a NaN (00 R14). -/
theorem fisNaN_fmul_left (k : Key) {x : F32} (y : F32) (h : fisNaN x = true) : fisNaN (fmul k x y) = true := by
  simp [fmul, h]

/-- A sum with a NaN is a NaN (00 R14). -/
theorem fisNaN_fadd_left (k : Key) {x : F32} (y : F32) (h : fisNaN x = true) : fisNaN (fadd k x y) = true := by
  simp [fadd, h]

/-! ## The key matters only to a NaN

A result that is no NaN is the same whatever the key is, so a concrete result is computed once, with any key. -/

theorem fadd_key {k : Key} {x y : F32} (k' : Key) (h : fisNaN (fadd k x y) = false) : fadd k' x y = fadd k x y := by
  unfold fadd at *
  dsimp only at *
  repeat' split
  all_goals simp_all

theorem fsub_key {k : Key} {x y : F32} (k' : Key) (h : fisNaN (fsub k x y) = false) : fsub k' x y = fsub k x y :=
  fadd_key k' h

theorem fmul_key {k : Key} {x y : F32} (k' : Key) (h : fisNaN (fmul k x y) = false) : fmul k' x y = fmul k x y := by
  unfold fmul at *
  dsimp only at *
  repeat' split
  all_goals simp_all

theorem fdiv_key {k : Key} {x y : F32} (k' : Key) (h : fisNaN (fdiv k x y) = false) : fdiv k' x y = fdiv k x y := by
  unfold fdiv at *
  dsimp only at *
  repeat' split
  all_goals simp_all

/-- Whether a product is a NaN does not depend on the key. -/
theorem fisNaN_fmul_key (k k' : Key) (x y : F32) : fisNaN (fmul k' x y) = fisNaN (fmul k x y) := by
  cases h : fisNaN (fmul k x y) with
  | false => rw [fmul_key k' h, h]
  | true =>
    cases h' : fisNaN (fmul k' x y) with
    | true => rfl
    | false => rw [← fmul_key k h', h] at h'; cases h'

/-- Whether a sum is a NaN does not depend on the key. -/
theorem fisNaN_fadd_key (k k' : Key) (x y : F32) : fisNaN (fadd k' x y) = fisNaN (fadd k x y) := by
  cases h : fisNaN (fadd k x y) with
  | false => rw [fadd_key k' h, h]
  | true =>
    cases h' : fisNaN (fadd k' x y) with
    | true => rfl
    | false => rw [← fadd_key k h', h] at h'; cases h'

/-- A comparison of a product does not depend on the key (00 R8: false for every NaN). -/
theorem flt_fmul_key (k k' : Key) (x y z : F32) : flt (fmul k' x y) z = flt (fmul k x y) z := by
  cases h : fisNaN (fmul k x y) with
  | false => rw [fmul_key k' h]
  | true => rw [flt_nan_left _ h, flt_nan_left _ ((fisNaN_fmul_key k k' x y).trans h)]

/-! ## Concrete results, for every key -/

theorem fadd_eq {x y r : F32} (h : fadd [] x y = r) (hr : fisNaN r = false) (k : Key) : fadd k x y = r := by
  subst h; exact fadd_key k hr

theorem fsub_eq {x y r : F32} (h : fsub [] x y = r) (hr : fisNaN r = false) (k : Key) : fsub k x y = r := by
  subst h; exact fsub_key k hr

theorem fmul_eq {x y r : F32} (h : fmul [] x y = r) (hr : fisNaN r = false) (k : Key) : fmul k x y = r := by
  subst h; exact fmul_key k hr

theorem fdiv_eq {x y r : F32} (h : fdiv [] x y = r) (hr : fisNaN r = false) (k : Key) : fdiv k x y = r := by
  subst h; exact fdiv_key k hr

@[simp] theorem fsub_one_zero (k : Key) : fsub k f1 f0 = f1 := fsub_eq (by decide +kernel) (by decide) k

@[simp] theorem fadd_one_zero (k : Key) : fadd k f1 f0 = f1 := fadd_eq (by decide +kernel) (by decide) k

@[simp] theorem fadd_zero_zero (k : Key) : fadd k f0 f0 = f0 := fadd_eq (by decide +kernel) (by decide) k

@[simp] theorem fmul_piOver4_one (k : Key) : fmul k fPiOver4 f1 = fPiOver4 := fmul_eq (by decide +kernel) (by decide) k

/-- `SILENCE + SILENCE` is 0x3951B717 (00 R9). -/
@[simp] theorem fadd_silence (k : Key) : fadd k fSilence fSilence = 0x3951B717#32 :=
  fadd_eq (by decide +kernel) (by decide) k

end Sys2Proof.Machine
end

