-- ==== Sys2Proof/Laws/State.lean ====
section
/-!
SUPPORT. What each update of the state does to each field: one lemma per field per update, true by unfolding, so that
no later proof unfolds a record update.
-/

namespace Sys2Proof.Machine

/-! ## `enterFault` -/

@[simp] theorem enterFault_params (code : FaultCode) (s : State) : (enterFault code s).params = s.params := rfl
@[simp] theorem enterFault_voices (code : FaultCode) (s : State) : (enterFault code s).voices = s.voices := rfl
@[simp] theorem enterFault_sampleRate (code : FaultCode) (s : State) :
    (enterFault code s).sampleRate = s.sampleRate := rfl
@[simp] theorem enterFault_blockSize (code : FaultCode) (s : State) :
    (enterFault code s).blockSize = s.blockSize := rfl
@[simp] theorem enterFault_lifecycle (code : FaultCode) (s : State) :
    (enterFault code s).lifecycle = s.lifecycle := rfl
@[simp] theorem enterFault_fault (code : FaultCode) (s : State) :
    (enterFault code s).fault = some code := rfl
@[simp] theorem enterFault_noiseSeed (code : FaultCode) (s : State) :
    (enterFault code s).noiseSeed = s.noiseSeed := rfl
@[simp] theorem enterFault_pitchBend (code : FaultCode) (s : State) :
    (enterFault code s).pitchBend = s.pitchBend := rfl
@[simp] theorem enterFault_sustainPedalPressed (code : FaultCode) (s : State) :
    (enterFault code s).sustainPedalPressed = s.sustainPedalPressed := rfl
@[simp] theorem enterFault_modWheel (code : FaultCode) (s : State) : (enterFault code s).modWheel = s.modWheel := rfl
@[simp] theorem enterFault_lfo (code : FaultCode) (s : State) : (enterFault code s).lfo = s.lfo := rfl
@[simp] theorem enterFault_lfoStep (code : FaultCode) (s : State) : (enterFault code s).lfoStep = s.lfoStep := rfl
@[simp] theorem enterFault_lastNote (code : FaultCode) (s : State) : (enterFault code s).lastNote = s.lastNote := rfl
@[simp] theorem enterFault_filterZip (code : FaultCode) (s : State) :
    (enterFault code s).filterZip = s.filterZip := rfl
@[simp] theorem enterFault_vibratoMod (code : FaultCode) (s : State) :
    (enterFault code s).vibratoMod = s.vibratoMod := rfl
@[simp] theorem enterFault_pwm (code : FaultCode) (s : State) : (enterFault code s).pwm = s.pwm := rfl
@[simp] theorem enterFault_written (code : FaultCode) (s : State) : (enterFault code s).written = s.written := rfl
@[simp] theorem enterFault_notifications (code : FaultCode) (s : State) :
    (enterFault code s).notifications = s.notifications := rfl
@[simp] theorem enterFault_snapshot (code : FaultCode) (s : State) : (enterFault code s).snapshot = s.snapshot := rfl
@[simp] theorem enterFault_block (code : FaultCode) (s : State) : (enterFault code s).block = s.block := rfl
@[simp] theorem enterFault_out (code : FaultCode) (s : State) : (enterFault code s).out = s.out := rfl
@[simp] theorem enterFault_commands (code : FaultCode) (s : State) : (enterFault code s).commands = s.commands := rfl
@[simp] theorem enterFault_reply (code : FaultCode) (s : State) : (enterFault code s).reply = s.reply := rfl
@[simp] theorem enterFault_draws (code : FaultCode) (s : State) : (enterFault code s).draws = s.draws := rfl

/-! ## `refuse` -/

@[simp] theorem refuse_params (reason : RefuseReason) (s : State) : (refuse reason s).params = s.params := rfl
@[simp] theorem refuse_voices (reason : RefuseReason) (s : State) : (refuse reason s).voices = s.voices := rfl
@[simp] theorem refuse_sampleRate (reason : RefuseReason) (s : State) :
    (refuse reason s).sampleRate = s.sampleRate := rfl
@[simp] theorem refuse_blockSize (reason : RefuseReason) (s : State) :
    (refuse reason s).blockSize = s.blockSize := rfl
@[simp] theorem refuse_lifecycle (reason : RefuseReason) (s : State) :
    (refuse reason s).lifecycle = s.lifecycle := rfl
@[simp] theorem refuse_fault (reason : RefuseReason) (s : State) : (refuse reason s).fault = s.fault := rfl
@[simp] theorem refuse_noiseSeed (reason : RefuseReason) (s : State) :
    (refuse reason s).noiseSeed = s.noiseSeed := rfl
@[simp] theorem refuse_pitchBend (reason : RefuseReason) (s : State) :
    (refuse reason s).pitchBend = s.pitchBend := rfl
@[simp] theorem refuse_sustainPedalPressed (reason : RefuseReason) (s : State) :
    (refuse reason s).sustainPedalPressed = s.sustainPedalPressed := rfl
@[simp] theorem refuse_modWheel (reason : RefuseReason) (s : State) : (refuse reason s).modWheel = s.modWheel := rfl
@[simp] theorem refuse_lfo (reason : RefuseReason) (s : State) : (refuse reason s).lfo = s.lfo := rfl
@[simp] theorem refuse_lfoStep (reason : RefuseReason) (s : State) : (refuse reason s).lfoStep = s.lfoStep := rfl
@[simp] theorem refuse_lastNote (reason : RefuseReason) (s : State) : (refuse reason s).lastNote = s.lastNote := rfl
@[simp] theorem refuse_filterZip (reason : RefuseReason) (s : State) :
    (refuse reason s).filterZip = s.filterZip := rfl
@[simp] theorem refuse_vibratoMod (reason : RefuseReason) (s : State) :
    (refuse reason s).vibratoMod = s.vibratoMod := rfl
@[simp] theorem refuse_pwm (reason : RefuseReason) (s : State) : (refuse reason s).pwm = s.pwm := rfl
@[simp] theorem refuse_written (reason : RefuseReason) (s : State) : (refuse reason s).written = s.written := rfl
@[simp] theorem refuse_notifications (reason : RefuseReason) (s : State) :
    (refuse reason s).notifications = s.notifications := rfl
@[simp] theorem refuse_snapshot (reason : RefuseReason) (s : State) : (refuse reason s).snapshot = s.snapshot := rfl
@[simp] theorem refuse_block (reason : RefuseReason) (s : State) : (refuse reason s).block = s.block := rfl
@[simp] theorem refuse_out (reason : RefuseReason) (s : State) : (refuse reason s).out = s.out := rfl
@[simp] theorem refuse_commands (reason : RefuseReason) (s : State) : (refuse reason s).commands = s.commands := rfl
@[simp] theorem refuse_reply (reason : RefuseReason) (s : State) :
    (refuse reason s).reply = .refused reason := rfl
@[simp] theorem refuse_draws (reason : RefuseReason) (s : State) : (refuse reason s).draws = s.draws := rfl

/-! ## `complete` -/

@[simp] theorem complete_params (s : State) : (complete s).params = s.params := rfl
@[simp] theorem complete_voices (s : State) : (complete s).voices = s.voices := rfl
@[simp] theorem complete_sampleRate (s : State) : (complete s).sampleRate = s.sampleRate := rfl
@[simp] theorem complete_blockSize (s : State) : (complete s).blockSize = s.blockSize := rfl
@[simp] theorem complete_lifecycle (s : State) : (complete s).lifecycle = s.lifecycle := rfl
@[simp] theorem complete_fault (s : State) : (complete s).fault = s.fault := rfl
@[simp] theorem complete_noiseSeed (s : State) : (complete s).noiseSeed = s.noiseSeed := rfl
@[simp] theorem complete_pitchBend (s : State) : (complete s).pitchBend = s.pitchBend := rfl
@[simp] theorem complete_sustainPedalPressed (s : State) :
    (complete s).sustainPedalPressed = s.sustainPedalPressed := rfl
@[simp] theorem complete_modWheel (s : State) : (complete s).modWheel = s.modWheel := rfl
@[simp] theorem complete_lfo (s : State) : (complete s).lfo = s.lfo := rfl
@[simp] theorem complete_lfoStep (s : State) : (complete s).lfoStep = s.lfoStep := rfl
@[simp] theorem complete_lastNote (s : State) : (complete s).lastNote = s.lastNote := rfl
@[simp] theorem complete_filterZip (s : State) : (complete s).filterZip = s.filterZip := rfl
@[simp] theorem complete_vibratoMod (s : State) : (complete s).vibratoMod = s.vibratoMod := rfl
@[simp] theorem complete_pwm (s : State) : (complete s).pwm = s.pwm := rfl
@[simp] theorem complete_written (s : State) : (complete s).written = s.written := rfl
@[simp] theorem complete_notifications (s : State) : (complete s).notifications = s.notifications := rfl
@[simp] theorem complete_snapshot (s : State) : (complete s).snapshot = s.snapshot := rfl
@[simp] theorem complete_block (s : State) : (complete s).block = s.block := rfl
@[simp] theorem complete_out (s : State) : (complete s).out = s.out := rfl
@[simp] theorem complete_commands (s : State) : (complete s).commands = s.commands := rfl
@[simp] theorem complete_reply (s : State) :
    (complete s).reply = .done := rfl
@[simp] theorem complete_draws (s : State) : (complete s).draws = s.draws := rfl

/-! ## `notify` -/

@[simp] theorem notify_params (m : Notification) (s : State) : (notify m s).params = s.params := rfl
@[simp] theorem notify_voices (m : Notification) (s : State) : (notify m s).voices = s.voices := rfl
@[simp] theorem notify_sampleRate (m : Notification) (s : State) : (notify m s).sampleRate = s.sampleRate := rfl
@[simp] theorem notify_blockSize (m : Notification) (s : State) : (notify m s).blockSize = s.blockSize := rfl
@[simp] theorem notify_lifecycle (m : Notification) (s : State) : (notify m s).lifecycle = s.lifecycle := rfl
@[simp] theorem notify_fault (m : Notification) (s : State) : (notify m s).fault = s.fault := rfl
@[simp] theorem notify_noiseSeed (m : Notification) (s : State) : (notify m s).noiseSeed = s.noiseSeed := rfl
@[simp] theorem notify_pitchBend (m : Notification) (s : State) : (notify m s).pitchBend = s.pitchBend := rfl
@[simp] theorem notify_sustainPedalPressed (m : Notification) (s : State) :
    (notify m s).sustainPedalPressed = s.sustainPedalPressed := rfl
@[simp] theorem notify_modWheel (m : Notification) (s : State) : (notify m s).modWheel = s.modWheel := rfl
@[simp] theorem notify_lfo (m : Notification) (s : State) : (notify m s).lfo = s.lfo := rfl
@[simp] theorem notify_lfoStep (m : Notification) (s : State) : (notify m s).lfoStep = s.lfoStep := rfl
@[simp] theorem notify_lastNote (m : Notification) (s : State) : (notify m s).lastNote = s.lastNote := rfl
@[simp] theorem notify_filterZip (m : Notification) (s : State) : (notify m s).filterZip = s.filterZip := rfl
@[simp] theorem notify_vibratoMod (m : Notification) (s : State) : (notify m s).vibratoMod = s.vibratoMod := rfl
@[simp] theorem notify_pwm (m : Notification) (s : State) : (notify m s).pwm = s.pwm := rfl
@[simp] theorem notify_written (m : Notification) (s : State) : (notify m s).written = s.written := rfl
@[simp] theorem notify_notifications (m : Notification) (s : State) :
    (notify m s).notifications = s.notifications ++ [m] := rfl
@[simp] theorem notify_snapshot (m : Notification) (s : State) : (notify m s).snapshot = s.snapshot := rfl
@[simp] theorem notify_block (m : Notification) (s : State) : (notify m s).block = s.block := rfl
@[simp] theorem notify_out (m : Notification) (s : State) : (notify m s).out = s.out := rfl
@[simp] theorem notify_commands (m : Notification) (s : State) : (notify m s).commands = s.commands := rfl
@[simp] theorem notify_reply (m : Notification) (s : State) : (notify m s).reply = s.reply := rfl
@[simp] theorem notify_draws (m : Notification) (s : State) : (notify m s).draws = s.draws := rfl

/-! ## `nextDraw` -/

@[simp] theorem nextDraw_params (s : State) : (nextDraw s).params = s.params := rfl
@[simp] theorem nextDraw_voices (s : State) : (nextDraw s).voices = s.voices := rfl
@[simp] theorem nextDraw_sampleRate (s : State) : (nextDraw s).sampleRate = s.sampleRate := rfl
@[simp] theorem nextDraw_blockSize (s : State) : (nextDraw s).blockSize = s.blockSize := rfl
@[simp] theorem nextDraw_lifecycle (s : State) : (nextDraw s).lifecycle = s.lifecycle := rfl
@[simp] theorem nextDraw_fault (s : State) : (nextDraw s).fault = s.fault := rfl
@[simp] theorem nextDraw_noiseSeed (s : State) : (nextDraw s).noiseSeed = s.noiseSeed := rfl
@[simp] theorem nextDraw_pitchBend (s : State) : (nextDraw s).pitchBend = s.pitchBend := rfl
@[simp] theorem nextDraw_sustainPedalPressed (s : State) :
    (nextDraw s).sustainPedalPressed = s.sustainPedalPressed := rfl
@[simp] theorem nextDraw_modWheel (s : State) : (nextDraw s).modWheel = s.modWheel := rfl
@[simp] theorem nextDraw_lfo (s : State) : (nextDraw s).lfo = s.lfo := rfl
@[simp] theorem nextDraw_lfoStep (s : State) : (nextDraw s).lfoStep = s.lfoStep := rfl
@[simp] theorem nextDraw_lastNote (s : State) : (nextDraw s).lastNote = s.lastNote := rfl
@[simp] theorem nextDraw_filterZip (s : State) : (nextDraw s).filterZip = s.filterZip := rfl
@[simp] theorem nextDraw_vibratoMod (s : State) : (nextDraw s).vibratoMod = s.vibratoMod := rfl
@[simp] theorem nextDraw_pwm (s : State) : (nextDraw s).pwm = s.pwm := rfl
@[simp] theorem nextDraw_written (s : State) : (nextDraw s).written = s.written := rfl
@[simp] theorem nextDraw_notifications (s : State) : (nextDraw s).notifications = s.notifications := rfl
@[simp] theorem nextDraw_snapshot (s : State) : (nextDraw s).snapshot = s.snapshot := rfl
@[simp] theorem nextDraw_block (s : State) : (nextDraw s).block = s.block := rfl
@[simp] theorem nextDraw_out (s : State) : (nextDraw s).out = s.out := rfl
@[simp] theorem nextDraw_commands (s : State) : (nextDraw s).commands = s.commands := rfl
@[simp] theorem nextDraw_reply (s : State) : (nextDraw s).reply = s.reply := rfl
@[simp] theorem nextDraw_draws (s : State) :
    (nextDraw s).draws = s.draws + 1 := rfl

/-! ## `writeLastNote` -/

@[simp] theorem writeLastNote_params (n : Int) (s : State) : (writeLastNote n s).params = s.params := rfl
@[simp] theorem writeLastNote_voices (n : Int) (s : State) : (writeLastNote n s).voices = s.voices := rfl
@[simp] theorem writeLastNote_sampleRate (n : Int) (s : State) : (writeLastNote n s).sampleRate = s.sampleRate := rfl
@[simp] theorem writeLastNote_blockSize (n : Int) (s : State) : (writeLastNote n s).blockSize = s.blockSize := rfl
@[simp] theorem writeLastNote_lifecycle (n : Int) (s : State) : (writeLastNote n s).lifecycle = s.lifecycle := rfl
@[simp] theorem writeLastNote_fault (n : Int) (s : State) : (writeLastNote n s).fault = s.fault := rfl
@[simp] theorem writeLastNote_noiseSeed (n : Int) (s : State) : (writeLastNote n s).noiseSeed = s.noiseSeed := rfl
@[simp] theorem writeLastNote_pitchBend (n : Int) (s : State) : (writeLastNote n s).pitchBend = s.pitchBend := rfl
@[simp] theorem writeLastNote_sustainPedalPressed (n : Int) (s : State) :
    (writeLastNote n s).sustainPedalPressed = s.sustainPedalPressed := rfl
@[simp] theorem writeLastNote_modWheel (n : Int) (s : State) : (writeLastNote n s).modWheel = s.modWheel := rfl
@[simp] theorem writeLastNote_lfo (n : Int) (s : State) : (writeLastNote n s).lfo = s.lfo := rfl
@[simp] theorem writeLastNote_lfoStep (n : Int) (s : State) : (writeLastNote n s).lfoStep = s.lfoStep := rfl
@[simp] theorem writeLastNote_lastNote (n : Int) (s : State) :
    (writeLastNote n s).lastNote = n := rfl
@[simp] theorem writeLastNote_filterZip (n : Int) (s : State) : (writeLastNote n s).filterZip = s.filterZip := rfl
@[simp] theorem writeLastNote_vibratoMod (n : Int) (s : State) : (writeLastNote n s).vibratoMod = s.vibratoMod := rfl
@[simp] theorem writeLastNote_pwm (n : Int) (s : State) : (writeLastNote n s).pwm = s.pwm := rfl
@[simp] theorem writeLastNote_written (n : Int) (s : State) :
    (writeLastNote n s).written = { s.written with lastNote := true } := rfl
@[simp] theorem writeLastNote_notifications (n : Int) (s : State) :
    (writeLastNote n s).notifications = s.notifications := rfl
@[simp] theorem writeLastNote_snapshot (n : Int) (s : State) : (writeLastNote n s).snapshot = s.snapshot := rfl
@[simp] theorem writeLastNote_block (n : Int) (s : State) : (writeLastNote n s).block = s.block := rfl
@[simp] theorem writeLastNote_out (n : Int) (s : State) : (writeLastNote n s).out = s.out := rfl
@[simp] theorem writeLastNote_commands (n : Int) (s : State) : (writeLastNote n s).commands = s.commands := rfl
@[simp] theorem writeLastNote_reply (n : Int) (s : State) : (writeLastNote n s).reply = s.reply := rfl
@[simp] theorem writeLastNote_draws (n : Int) (s : State) : (writeLastNote n s).draws = s.draws := rfl

/-! ## `writePedal` -/

@[simp] theorem writePedal_params (b : Bool) (s : State) : (writePedal b s).params = s.params := rfl
@[simp] theorem writePedal_voices (b : Bool) (s : State) : (writePedal b s).voices = s.voices := rfl
@[simp] theorem writePedal_sampleRate (b : Bool) (s : State) : (writePedal b s).sampleRate = s.sampleRate := rfl
@[simp] theorem writePedal_blockSize (b : Bool) (s : State) : (writePedal b s).blockSize = s.blockSize := rfl
@[simp] theorem writePedal_lifecycle (b : Bool) (s : State) : (writePedal b s).lifecycle = s.lifecycle := rfl
@[simp] theorem writePedal_fault (b : Bool) (s : State) : (writePedal b s).fault = s.fault := rfl
@[simp] theorem writePedal_noiseSeed (b : Bool) (s : State) : (writePedal b s).noiseSeed = s.noiseSeed := rfl
@[simp] theorem writePedal_pitchBend (b : Bool) (s : State) : (writePedal b s).pitchBend = s.pitchBend := rfl
@[simp] theorem writePedal_sustainPedalPressed (b : Bool) (s : State) :
    (writePedal b s).sustainPedalPressed = b := rfl
@[simp] theorem writePedal_modWheel (b : Bool) (s : State) : (writePedal b s).modWheel = s.modWheel := rfl
@[simp] theorem writePedal_lfo (b : Bool) (s : State) : (writePedal b s).lfo = s.lfo := rfl
@[simp] theorem writePedal_lfoStep (b : Bool) (s : State) : (writePedal b s).lfoStep = s.lfoStep := rfl
@[simp] theorem writePedal_lastNote (b : Bool) (s : State) : (writePedal b s).lastNote = s.lastNote := rfl
@[simp] theorem writePedal_filterZip (b : Bool) (s : State) : (writePedal b s).filterZip = s.filterZip := rfl
@[simp] theorem writePedal_vibratoMod (b : Bool) (s : State) : (writePedal b s).vibratoMod = s.vibratoMod := rfl
@[simp] theorem writePedal_pwm (b : Bool) (s : State) : (writePedal b s).pwm = s.pwm := rfl
@[simp] theorem writePedal_written (b : Bool) (s : State) :
    (writePedal b s).written = { s.written with sustainPedalPressed := true } := rfl
@[simp] theorem writePedal_notifications (b : Bool) (s : State) :
    (writePedal b s).notifications = s.notifications := rfl
@[simp] theorem writePedal_snapshot (b : Bool) (s : State) : (writePedal b s).snapshot = s.snapshot := rfl
@[simp] theorem writePedal_block (b : Bool) (s : State) : (writePedal b s).block = s.block := rfl
@[simp] theorem writePedal_out (b : Bool) (s : State) : (writePedal b s).out = s.out := rfl
@[simp] theorem writePedal_commands (b : Bool) (s : State) : (writePedal b s).commands = s.commands := rfl
@[simp] theorem writePedal_reply (b : Bool) (s : State) : (writePedal b s).reply = s.reply := rfl
@[simp] theorem writePedal_draws (b : Bool) (s : State) : (writePedal b s).draws = s.draws := rfl

/-! ## `afterEvent` -/

@[simp] theorem afterEvent_params (s : State) : (afterEvent s).params = s.params := rfl
@[simp] theorem afterEvent_voices (s : State) : (afterEvent s).voices = s.voices := rfl
@[simp] theorem afterEvent_sampleRate (s : State) : (afterEvent s).sampleRate = s.sampleRate := rfl
@[simp] theorem afterEvent_blockSize (s : State) : (afterEvent s).blockSize = s.blockSize := rfl
@[simp] theorem afterEvent_lifecycle (s : State) : (afterEvent s).lifecycle = s.lifecycle := rfl
@[simp] theorem afterEvent_fault (s : State) : (afterEvent s).fault = s.fault := rfl
@[simp] theorem afterEvent_noiseSeed (s : State) : (afterEvent s).noiseSeed = s.noiseSeed := rfl
@[simp] theorem afterEvent_pitchBend (s : State) : (afterEvent s).pitchBend = s.pitchBend := rfl
@[simp] theorem afterEvent_sustainPedalPressed (s : State) :
    (afterEvent s).sustainPedalPressed = s.sustainPedalPressed := rfl
@[simp] theorem afterEvent_modWheel (s : State) : (afterEvent s).modWheel = s.modWheel := rfl
@[simp] theorem afterEvent_lfo (s : State) : (afterEvent s).lfo = s.lfo := rfl
@[simp] theorem afterEvent_lfoStep (s : State) : (afterEvent s).lfoStep = s.lfoStep := rfl
@[simp] theorem afterEvent_lastNote (s : State) : (afterEvent s).lastNote = s.lastNote := rfl
@[simp] theorem afterEvent_filterZip (s : State) : (afterEvent s).filterZip = s.filterZip := rfl
@[simp] theorem afterEvent_vibratoMod (s : State) : (afterEvent s).vibratoMod = s.vibratoMod := rfl
@[simp] theorem afterEvent_pwm (s : State) : (afterEvent s).pwm = s.pwm := rfl
@[simp] theorem afterEvent_written (s : State) : (afterEvent s).written = s.written := rfl
@[simp] theorem afterEvent_notifications (s : State) : (afterEvent s).notifications = s.notifications := rfl
@[simp] theorem afterEvent_snapshot (s : State) : (afterEvent s).snapshot = s.snapshot := rfl
@[simp] theorem afterEvent_block (s : State) :
    (afterEvent s).block = s.block.map advanceEvent := rfl
@[simp] theorem afterEvent_out (s : State) : (afterEvent s).out = s.out := rfl
@[simp] theorem afterEvent_commands (s : State) : (afterEvent s).commands = s.commands := rfl
@[simp] theorem afterEvent_reply (s : State) : (afterEvent s).reply = s.reply := rfl
@[simp] theorem afterEvent_draws (s : State) :
    (afterEvent s).draws = s.draws + 1 := rfl

/-! ## `afterFrame` -/

@[simp] theorem afterFrame_params (s : State) : (afterFrame s).params = s.params := rfl
@[simp] theorem afterFrame_voices (s : State) : (afterFrame s).voices = s.voices := rfl
@[simp] theorem afterFrame_sampleRate (s : State) : (afterFrame s).sampleRate = s.sampleRate := rfl
@[simp] theorem afterFrame_blockSize (s : State) : (afterFrame s).blockSize = s.blockSize := rfl
@[simp] theorem afterFrame_lifecycle (s : State) : (afterFrame s).lifecycle = s.lifecycle := rfl
@[simp] theorem afterFrame_fault (s : State) : (afterFrame s).fault = s.fault := rfl
@[simp] theorem afterFrame_noiseSeed (s : State) : (afterFrame s).noiseSeed = s.noiseSeed := rfl
@[simp] theorem afterFrame_pitchBend (s : State) : (afterFrame s).pitchBend = s.pitchBend := rfl
@[simp] theorem afterFrame_sustainPedalPressed (s : State) :
    (afterFrame s).sustainPedalPressed = s.sustainPedalPressed := rfl
@[simp] theorem afterFrame_modWheel (s : State) : (afterFrame s).modWheel = s.modWheel := rfl
@[simp] theorem afterFrame_lfo (s : State) : (afterFrame s).lfo = s.lfo := rfl
@[simp] theorem afterFrame_lfoStep (s : State) : (afterFrame s).lfoStep = s.lfoStep := rfl
@[simp] theorem afterFrame_lastNote (s : State) : (afterFrame s).lastNote = s.lastNote := rfl
@[simp] theorem afterFrame_filterZip (s : State) : (afterFrame s).filterZip = s.filterZip := rfl
@[simp] theorem afterFrame_vibratoMod (s : State) : (afterFrame s).vibratoMod = s.vibratoMod := rfl
@[simp] theorem afterFrame_pwm (s : State) : (afterFrame s).pwm = s.pwm := rfl
@[simp] theorem afterFrame_written (s : State) : (afterFrame s).written = s.written := rfl
@[simp] theorem afterFrame_notifications (s : State) : (afterFrame s).notifications = s.notifications := rfl
@[simp] theorem afterFrame_snapshot (s : State) : (afterFrame s).snapshot = s.snapshot := rfl
@[simp] theorem afterFrame_block (s : State) :
    (afterFrame s).block = s.block.map advanceCursor := rfl
@[simp] theorem afterFrame_out (s : State) : (afterFrame s).out = s.out := rfl
@[simp] theorem afterFrame_commands (s : State) : (afterFrame s).commands = s.commands := rfl
@[simp] theorem afterFrame_reply (s : State) : (afterFrame s).reply = s.reply := rfl
@[simp] theorem afterFrame_draws (s : State) :
    (afterFrame s).draws = s.draws + 1 := rfl

/-! ## `endBlock` -/

@[simp] theorem endBlock_params (s : State) : (endBlock s).params = s.params := rfl
@[simp] theorem endBlock_voices (s : State) : (endBlock s).voices = s.voices := rfl
@[simp] theorem endBlock_sampleRate (s : State) : (endBlock s).sampleRate = s.sampleRate := rfl
@[simp] theorem endBlock_blockSize (s : State) : (endBlock s).blockSize = s.blockSize := rfl
@[simp] theorem endBlock_lifecycle (s : State) : (endBlock s).lifecycle = s.lifecycle := rfl
@[simp] theorem endBlock_fault (s : State) : (endBlock s).fault = s.fault := rfl
@[simp] theorem endBlock_noiseSeed (s : State) : (endBlock s).noiseSeed = s.noiseSeed := rfl
@[simp] theorem endBlock_pitchBend (s : State) : (endBlock s).pitchBend = s.pitchBend := rfl
@[simp] theorem endBlock_sustainPedalPressed (s : State) :
    (endBlock s).sustainPedalPressed = s.sustainPedalPressed := rfl
@[simp] theorem endBlock_modWheel (s : State) : (endBlock s).modWheel = s.modWheel := rfl
@[simp] theorem endBlock_lfo (s : State) : (endBlock s).lfo = s.lfo := rfl
@[simp] theorem endBlock_lfoStep (s : State) : (endBlock s).lfoStep = s.lfoStep := rfl
@[simp] theorem endBlock_lastNote (s : State) : (endBlock s).lastNote = s.lastNote := rfl
@[simp] theorem endBlock_filterZip (s : State) : (endBlock s).filterZip = s.filterZip := rfl
@[simp] theorem endBlock_vibratoMod (s : State) : (endBlock s).vibratoMod = s.vibratoMod := rfl
@[simp] theorem endBlock_pwm (s : State) : (endBlock s).pwm = s.pwm := rfl
@[simp] theorem endBlock_written (s : State) : (endBlock s).written = s.written := rfl
@[simp] theorem endBlock_notifications (s : State) : (endBlock s).notifications = s.notifications := rfl
@[simp] theorem endBlock_snapshot (s : State) : (endBlock s).snapshot = s.snapshot := rfl
@[simp] theorem endBlock_block (s : State) :
    (endBlock s).block = none := rfl
@[simp] theorem endBlock_out (s : State) : (endBlock s).out = s.out := rfl
@[simp] theorem endBlock_commands (s : State) : (endBlock s).commands = s.commands := rfl
@[simp] theorem endBlock_reply (s : State) :
    (endBlock s).reply = .done := rfl
@[simp] theorem endBlock_draws (s : State) : (endBlock s).draws = s.draws := rfl

/-! ## `acceptBlock` -/

@[simp] theorem acceptBlock_params (p : Snapshot) (es : List Event) (n c : Nat) (s : State) :
    (acceptBlock p es n c s).params = s.params := rfl
@[simp] theorem acceptBlock_voices (p : Snapshot) (es : List Event) (n c : Nat) (s : State) :
    (acceptBlock p es n c s).voices = s.voices := rfl
@[simp] theorem acceptBlock_sampleRate (p : Snapshot) (es : List Event) (n c : Nat) (s : State) :
    (acceptBlock p es n c s).sampleRate = s.sampleRate := rfl
@[simp] theorem acceptBlock_blockSize (p : Snapshot) (es : List Event) (n c : Nat) (s : State) :
    (acceptBlock p es n c s).blockSize = s.blockSize := rfl
@[simp] theorem acceptBlock_lifecycle (p : Snapshot) (es : List Event) (n c : Nat) (s : State) :
    (acceptBlock p es n c s).lifecycle = s.lifecycle := rfl
@[simp] theorem acceptBlock_fault (p : Snapshot) (es : List Event) (n c : Nat) (s : State) :
    (acceptBlock p es n c s).fault = s.fault := rfl
@[simp] theorem acceptBlock_noiseSeed (p : Snapshot) (es : List Event) (n c : Nat) (s : State) :
    (acceptBlock p es n c s).noiseSeed = s.noiseSeed := rfl
@[simp] theorem acceptBlock_pitchBend (p : Snapshot) (es : List Event) (n c : Nat) (s : State) :
    (acceptBlock p es n c s).pitchBend = s.pitchBend := rfl
@[simp] theorem acceptBlock_sustainPedalPressed (p : Snapshot) (es : List Event) (n c : Nat) (s : State) :
    (acceptBlock p es n c s).sustainPedalPressed = s.sustainPedalPressed := rfl
@[simp] theorem acceptBlock_modWheel (p : Snapshot) (es : List Event) (n c : Nat) (s : State) :
    (acceptBlock p es n c s).modWheel = s.modWheel := rfl
@[simp] theorem acceptBlock_lfo (p : Snapshot) (es : List Event) (n c : Nat) (s : State) :
    (acceptBlock p es n c s).lfo = s.lfo := rfl
@[simp] theorem acceptBlock_lfoStep (p : Snapshot) (es : List Event) (n c : Nat) (s : State) :
    (acceptBlock p es n c s).lfoStep = s.lfoStep := rfl
@[simp] theorem acceptBlock_lastNote (p : Snapshot) (es : List Event) (n c : Nat) (s : State) :
    (acceptBlock p es n c s).lastNote = s.lastNote := rfl
@[simp] theorem acceptBlock_filterZip (p : Snapshot) (es : List Event) (n c : Nat) (s : State) :
    (acceptBlock p es n c s).filterZip = s.filterZip := rfl
@[simp] theorem acceptBlock_vibratoMod (p : Snapshot) (es : List Event) (n c : Nat) (s : State) :
    (acceptBlock p es n c s).vibratoMod = s.vibratoMod := rfl
@[simp] theorem acceptBlock_pwm (p : Snapshot) (es : List Event) (n c : Nat) (s : State) :
    (acceptBlock p es n c s).pwm = s.pwm := rfl
@[simp] theorem acceptBlock_written (p : Snapshot) (es : List Event) (n c : Nat) (s : State) :
    (acceptBlock p es n c s).written = s.written := rfl
@[simp] theorem acceptBlock_notifications (p : Snapshot) (es : List Event) (n c : Nat) (s : State) :
    (acceptBlock p es n c s).notifications = [] := rfl
@[simp] theorem acceptBlock_snapshot (p : Snapshot) (es : List Event) (n c : Nat) (s : State) :
    (acceptBlock p es n c s).snapshot = p := rfl
@[simp] theorem acceptBlock_block (p : Snapshot) (es : List Event) (n c : Nat) (s : State) :
    (acceptBlock p es n c s).block = some (startBlock es n c) := rfl
@[simp] theorem acceptBlock_out (p : Snapshot) (es : List Event) (n c : Nat) (s : State) :
    (acceptBlock p es n c s).out = emptyBuffers := rfl
@[simp] theorem acceptBlock_commands (p : Snapshot) (es : List Event) (n c : Nat) (s : State) :
    (acceptBlock p es n c s).commands = s.commands := rfl
@[simp] theorem acceptBlock_reply (p : Snapshot) (es : List Event) (n c : Nat) (s : State) :
    (acceptBlock p es n c s).reply = .pending := rfl
@[simp] theorem acceptBlock_draws (p : Snapshot) (es : List Event) (n c : Nat) (s : State) :
    (acceptBlock p es n c s).draws = s.draws := rfl

/-! ## `releaseVoices` -/

@[simp] theorem releaseVoices_params (n : Int) (s : State) : (releaseVoices n s).params = s.params := rfl
@[simp] theorem releaseVoices_voices (n : Int) (s : State) :
    (releaseVoices n s).voices =
      mapVoices (fun _ v => releaseMatching s.params.filterPresent s.sustainPedalPressed n v) s.voices := rfl
@[simp] theorem releaseVoices_sampleRate (n : Int) (s : State) : (releaseVoices n s).sampleRate = s.sampleRate := rfl
@[simp] theorem releaseVoices_blockSize (n : Int) (s : State) : (releaseVoices n s).blockSize = s.blockSize := rfl
@[simp] theorem releaseVoices_lifecycle (n : Int) (s : State) : (releaseVoices n s).lifecycle = s.lifecycle := rfl
@[simp] theorem releaseVoices_fault (n : Int) (s : State) : (releaseVoices n s).fault = s.fault := rfl
@[simp] theorem releaseVoices_noiseSeed (n : Int) (s : State) : (releaseVoices n s).noiseSeed = s.noiseSeed := rfl
@[simp] theorem releaseVoices_pitchBend (n : Int) (s : State) : (releaseVoices n s).pitchBend = s.pitchBend := rfl
@[simp] theorem releaseVoices_sustainPedalPressed (n : Int) (s : State) :
    (releaseVoices n s).sustainPedalPressed = s.sustainPedalPressed := rfl
@[simp] theorem releaseVoices_modWheel (n : Int) (s : State) : (releaseVoices n s).modWheel = s.modWheel := rfl
@[simp] theorem releaseVoices_lfo (n : Int) (s : State) : (releaseVoices n s).lfo = s.lfo := rfl
@[simp] theorem releaseVoices_lfoStep (n : Int) (s : State) : (releaseVoices n s).lfoStep = s.lfoStep := rfl
@[simp] theorem releaseVoices_lastNote (n : Int) (s : State) : (releaseVoices n s).lastNote = s.lastNote := rfl
@[simp] theorem releaseVoices_filterZip (n : Int) (s : State) : (releaseVoices n s).filterZip = s.filterZip := rfl
@[simp] theorem releaseVoices_vibratoMod (n : Int) (s : State) : (releaseVoices n s).vibratoMod = s.vibratoMod := rfl
@[simp] theorem releaseVoices_pwm (n : Int) (s : State) : (releaseVoices n s).pwm = s.pwm := rfl
@[simp] theorem releaseVoices_written (n : Int) (s : State) : (releaseVoices n s).written = s.written := rfl
@[simp] theorem releaseVoices_notifications (n : Int) (s : State) :
    (releaseVoices n s).notifications = s.notifications := rfl
@[simp] theorem releaseVoices_snapshot (n : Int) (s : State) : (releaseVoices n s).snapshot = s.snapshot := rfl
@[simp] theorem releaseVoices_block (n : Int) (s : State) : (releaseVoices n s).block = s.block := rfl
@[simp] theorem releaseVoices_out (n : Int) (s : State) : (releaseVoices n s).out = s.out := rfl
@[simp] theorem releaseVoices_commands (n : Int) (s : State) : (releaseVoices n s).commands = s.commands := rfl
@[simp] theorem releaseVoices_reply (n : Int) (s : State) : (releaseVoices n s).reply = s.reply := rfl
@[simp] theorem releaseVoices_draws (n : Int) (s : State) : (releaseVoices n s).draws = s.draws := rfl

/-! ## `allNotesOffOp` -/

@[simp] theorem allNotesOffOp_params (k : Key) (s : State) : (allNotesOffOp k s).params = s.params := rfl
@[simp] theorem allNotesOffOp_voices (k : Key) (s : State) :
    (allNotesOffOp k s).voices =
      mapVoices (fun i v => voiceReset s.params.filterPresent (i.val :: k) v) s.voices := rfl
@[simp] theorem allNotesOffOp_sampleRate (k : Key) (s : State) : (allNotesOffOp k s).sampleRate = s.sampleRate := rfl
@[simp] theorem allNotesOffOp_blockSize (k : Key) (s : State) : (allNotesOffOp k s).blockSize = s.blockSize := rfl
@[simp] theorem allNotesOffOp_lifecycle (k : Key) (s : State) : (allNotesOffOp k s).lifecycle = s.lifecycle := rfl
@[simp] theorem allNotesOffOp_fault (k : Key) (s : State) : (allNotesOffOp k s).fault = s.fault := rfl
@[simp] theorem allNotesOffOp_noiseSeed (k : Key) (s : State) : (allNotesOffOp k s).noiseSeed = s.noiseSeed := rfl
@[simp] theorem allNotesOffOp_pitchBend (k : Key) (s : State) : (allNotesOffOp k s).pitchBend = s.pitchBend := rfl
@[simp] theorem allNotesOffOp_sustainPedalPressed (k : Key) (s : State) :
    (allNotesOffOp k s).sustainPedalPressed = false := rfl
@[simp] theorem allNotesOffOp_modWheel (k : Key) (s : State) : (allNotesOffOp k s).modWheel = s.modWheel := rfl
@[simp] theorem allNotesOffOp_lfo (k : Key) (s : State) : (allNotesOffOp k s).lfo = s.lfo := rfl
@[simp] theorem allNotesOffOp_lfoStep (k : Key) (s : State) : (allNotesOffOp k s).lfoStep = s.lfoStep := rfl
@[simp] theorem allNotesOffOp_lastNote (k : Key) (s : State) : (allNotesOffOp k s).lastNote = s.lastNote := rfl
@[simp] theorem allNotesOffOp_filterZip (k : Key) (s : State) : (allNotesOffOp k s).filterZip = s.filterZip := rfl
@[simp] theorem allNotesOffOp_vibratoMod (k : Key) (s : State) : (allNotesOffOp k s).vibratoMod = s.vibratoMod := rfl
@[simp] theorem allNotesOffOp_pwm (k : Key) (s : State) : (allNotesOffOp k s).pwm = s.pwm := rfl
@[simp] theorem allNotesOffOp_written (k : Key) (s : State) :
    (allNotesOffOp k s).written = { s.written with sustainPedalPressed := true } := rfl
@[simp] theorem allNotesOffOp_notifications (k : Key) (s : State) :
    (allNotesOffOp k s).notifications = s.notifications := rfl
@[simp] theorem allNotesOffOp_snapshot (k : Key) (s : State) : (allNotesOffOp k s).snapshot = s.snapshot := rfl
@[simp] theorem allNotesOffOp_block (k : Key) (s : State) : (allNotesOffOp k s).block = s.block := rfl
@[simp] theorem allNotesOffOp_out (k : Key) (s : State) : (allNotesOffOp k s).out = s.out := rfl
@[simp] theorem allNotesOffOp_commands (k : Key) (s : State) : (allNotesOffOp k s).commands = s.commands := rfl
@[simp] theorem allNotesOffOp_reply (k : Key) (s : State) : (allNotesOffOp k s).reply = s.reply := rfl
@[simp] theorem allNotesOffOp_draws (k : Key) (s : State) : (allNotesOffOp k s).draws = s.draws := rfl

/-! ## `resetOp` -/

@[simp] theorem resetOp_params (k : Key) (s : State) : (resetOp k s).params = s.params := rfl
@[simp] theorem resetOp_voices (k : Key) (s : State) :
    (resetOp k s).voices =
      mapVoices (fun i v => voiceReset s.params.filterPresent (i.val :: k) v) s.voices := rfl
@[simp] theorem resetOp_sampleRate (k : Key) (s : State) : (resetOp k s).sampleRate = s.sampleRate := rfl
@[simp] theorem resetOp_blockSize (k : Key) (s : State) : (resetOp k s).blockSize = s.blockSize := rfl
@[simp] theorem resetOp_lifecycle (k : Key) (s : State) :
    (resetOp k s).lifecycle = lifecycleAfterReset s.lifecycle := rfl
@[simp] theorem resetOp_fault (k : Key) (s : State) : (resetOp k s).fault = s.fault := rfl
@[simp] theorem resetOp_noiseSeed (k : Key) (s : State) :
    (resetOp k s).noiseSeed = noiseResetSeed := rfl
@[simp] theorem resetOp_pitchBend (k : Key) (s : State) :
    (resetOp k s).pitchBend = f1 := rfl
@[simp] theorem resetOp_sustainPedalPressed (k : Key) (s : State) :
    (resetOp k s).sustainPedalPressed = false := rfl
@[simp] theorem resetOp_modWheel (k : Key) (s : State) :
    (resetOp k s).modWheel = f0 := rfl
@[simp] theorem resetOp_lfo (k : Key) (s : State) :
    (resetOp k s).lfo = f0 := rfl
@[simp] theorem resetOp_lfoStep (k : Key) (s : State) :
    (resetOp k s).lfoStep = 0 := rfl
@[simp] theorem resetOp_lastNote (k : Key) (s : State) :
    (resetOp k s).lastNote = 0 := rfl
@[simp] theorem resetOp_filterZip (k : Key) (s : State) :
    (resetOp k s).filterZip = f0 := rfl
@[simp] theorem resetOp_vibratoMod (k : Key) (s : State) :
    (resetOp k s).vibratoMod = f1 := rfl
@[simp] theorem resetOp_pwm (k : Key) (s : State) :
    (resetOp k s).pwm = f1 := rfl
@[simp] theorem resetOp_written (k : Key) (s : State) :
    (resetOp k s).written = EngineWritten.all := rfl
@[simp] theorem resetOp_notifications (k : Key) (s : State) : (resetOp k s).notifications = s.notifications := rfl
@[simp] theorem resetOp_snapshot (k : Key) (s : State) : (resetOp k s).snapshot = s.snapshot := rfl
@[simp] theorem resetOp_block (k : Key) (s : State) : (resetOp k s).block = s.block := rfl
@[simp] theorem resetOp_out (k : Key) (s : State) : (resetOp k s).out = s.out := rfl
@[simp] theorem resetOp_commands (k : Key) (s : State) : (resetOp k s).commands = s.commands := rfl
@[simp] theorem resetOp_reply (k : Key) (s : State) : (resetOp k s).reply = s.reply := rfl
@[simp] theorem resetOp_draws (k : Key) (s : State) : (resetOp k s).draws = s.draws := rfl

/-! ## `allocateOp` -/

@[simp] theorem allocateOp_params (sr : F32) (bs : Int) (s : State) : (allocateOp sr bs s).params = s.params := rfl
@[simp] theorem allocateOp_voices (sr : F32) (bs : Int) (s : State) :
    (allocateOp sr bs s).voices =
      if s.params.filterPresent then
        mapVoices (fun _ v => { v with filter := { v.filter with sampleRate := sr } }) s.voices
      else s.voices := rfl
@[simp] theorem allocateOp_sampleRate (sr : F32) (bs : Int) (s : State) :
    (allocateOp sr bs s).sampleRate = sr := rfl
@[simp] theorem allocateOp_blockSize (sr : F32) (bs : Int) (s : State) :
    (allocateOp sr bs s).blockSize = bs := rfl
@[simp] theorem allocateOp_lifecycle (sr : F32) (bs : Int) (s : State) :
    (allocateOp sr bs s).lifecycle = .allocated := rfl
@[simp] theorem allocateOp_fault (sr : F32) (bs : Int) (s : State) : (allocateOp sr bs s).fault = s.fault := rfl
@[simp] theorem allocateOp_noiseSeed (sr : F32) (bs : Int) (s : State) :
    (allocateOp sr bs s).noiseSeed = s.noiseSeed := rfl
@[simp] theorem allocateOp_pitchBend (sr : F32) (bs : Int) (s : State) :
    (allocateOp sr bs s).pitchBend = s.pitchBend := rfl
@[simp] theorem allocateOp_sustainPedalPressed (sr : F32) (bs : Int) (s : State) :
    (allocateOp sr bs s).sustainPedalPressed = s.sustainPedalPressed := rfl
@[simp] theorem allocateOp_modWheel (sr : F32) (bs : Int) (s : State) :
    (allocateOp sr bs s).modWheel = s.modWheel := rfl
@[simp] theorem allocateOp_lfo (sr : F32) (bs : Int) (s : State) : (allocateOp sr bs s).lfo = s.lfo := rfl
@[simp] theorem allocateOp_lfoStep (sr : F32) (bs : Int) (s : State) : (allocateOp sr bs s).lfoStep = s.lfoStep := rfl
@[simp] theorem allocateOp_lastNote (sr : F32) (bs : Int) (s : State) :
    (allocateOp sr bs s).lastNote = s.lastNote := rfl
@[simp] theorem allocateOp_filterZip (sr : F32) (bs : Int) (s : State) :
    (allocateOp sr bs s).filterZip = s.filterZip := rfl
@[simp] theorem allocateOp_vibratoMod (sr : F32) (bs : Int) (s : State) :
    (allocateOp sr bs s).vibratoMod = s.vibratoMod := rfl
@[simp] theorem allocateOp_pwm (sr : F32) (bs : Int) (s : State) : (allocateOp sr bs s).pwm = s.pwm := rfl
@[simp] theorem allocateOp_written (sr : F32) (bs : Int) (s : State) : (allocateOp sr bs s).written = s.written := rfl
@[simp] theorem allocateOp_notifications (sr : F32) (bs : Int) (s : State) :
    (allocateOp sr bs s).notifications = s.notifications := rfl
@[simp] theorem allocateOp_snapshot (sr : F32) (bs : Int) (s : State) :
    (allocateOp sr bs s).snapshot = s.snapshot := rfl
@[simp] theorem allocateOp_block (sr : F32) (bs : Int) (s : State) : (allocateOp sr bs s).block = s.block := rfl
@[simp] theorem allocateOp_out (sr : F32) (bs : Int) (s : State) : (allocateOp sr bs s).out = s.out := rfl
@[simp] theorem allocateOp_commands (sr : F32) (bs : Int) (s : State) :
    (allocateOp sr bs s).commands = s.commands := rfl
@[simp] theorem allocateOp_reply (sr : F32) (bs : Int) (s : State) : (allocateOp sr bs s).reply = s.reply := rfl
@[simp] theorem allocateOp_draws (sr : F32) (bs : Int) (s : State) : (allocateOp sr bs s).draws = s.draws := rfl

/-! ## `tickRegisters` -/

@[simp] theorem tickRegisters_params (k : Key) (s : State) : (tickRegisters k s).params = s.params := by rfl
@[simp] theorem tickRegisters_voices (k : Key) (s : State) : (tickRegisters k s).voices = s.voices := by rfl
@[simp] theorem tickRegisters_sampleRate (k : Key) (s : State) :
    (tickRegisters k s).sampleRate = s.sampleRate := by rfl
@[simp] theorem tickRegisters_blockSize (k : Key) (s : State) : (tickRegisters k s).blockSize = s.blockSize := by rfl
@[simp] theorem tickRegisters_lifecycle (k : Key) (s : State) : (tickRegisters k s).lifecycle = s.lifecycle := by rfl
@[simp] theorem tickRegisters_fault (k : Key) (s : State) : (tickRegisters k s).fault = s.fault := by rfl
@[simp] theorem tickRegisters_noiseSeed (k : Key) (s : State) : (tickRegisters k s).noiseSeed = s.noiseSeed := by rfl
@[simp] theorem tickRegisters_pitchBend (k : Key) (s : State) : (tickRegisters k s).pitchBend = s.pitchBend := by rfl
@[simp] theorem tickRegisters_sustainPedalPressed (k : Key) (s : State) :
    (tickRegisters k s).sustainPedalPressed = s.sustainPedalPressed := by rfl
@[simp] theorem tickRegisters_modWheel (k : Key) (s : State) : (tickRegisters k s).modWheel = s.modWheel := by rfl
@[simp] theorem tickRegisters_lfo (k : Key) (s : State) :
    (tickRegisters k s).lfo = lfoAdvance (0 :: k) s := by rfl
@[simp] theorem tickRegisters_lfoStep (k : Key) (s : State) :
    (tickRegisters k s).lfoStep = (s.params.lfoMax : Int) := by rfl
@[simp] theorem tickRegisters_lastNote (k : Key) (s : State) : (tickRegisters k s).lastNote = s.lastNote := by rfl
@[simp] theorem tickRegisters_written (k : Key) (s : State) :
    (tickRegisters k s).written =
      { s.written with lfoStep := true, lfo := true, vibratoMod := true, pwm := true, filterZip := true } := by rfl
@[simp] theorem tickRegisters_notifications (k : Key) (s : State) :
    (tickRegisters k s).notifications = s.notifications := by rfl
@[simp] theorem tickRegisters_snapshot (k : Key) (s : State) : (tickRegisters k s).snapshot = s.snapshot := by rfl
@[simp] theorem tickRegisters_block (k : Key) (s : State) : (tickRegisters k s).block = s.block := by rfl
@[simp] theorem tickRegisters_out (k : Key) (s : State) : (tickRegisters k s).out = s.out := by rfl
@[simp] theorem tickRegisters_commands (k : Key) (s : State) : (tickRegisters k s).commands = s.commands := by rfl
@[simp] theorem tickRegisters_reply (k : Key) (s : State) : (tickRegisters k s).reply = s.reply := by rfl
@[simp] theorem tickRegisters_draws (k : Key) (s : State) : (tickRegisters k s).draws = s.draws := by rfl

/-! ## `writeFrame` -/

@[simp] theorem writeFrame_params (k : Key) (c : Nat) (lr : F32 × F32) (s : State) :
    (writeFrame k c lr s).params = s.params := rfl
@[simp] theorem writeFrame_voices (k : Key) (c : Nat) (lr : F32 × F32) (s : State) :
    (writeFrame k c lr s).voices = s.voices := rfl
@[simp] theorem writeFrame_sampleRate (k : Key) (c : Nat) (lr : F32 × F32) (s : State) :
    (writeFrame k c lr s).sampleRate = s.sampleRate := rfl
@[simp] theorem writeFrame_blockSize (k : Key) (c : Nat) (lr : F32 × F32) (s : State) :
    (writeFrame k c lr s).blockSize = s.blockSize := rfl
@[simp] theorem writeFrame_lifecycle (k : Key) (c : Nat) (lr : F32 × F32) (s : State) :
    (writeFrame k c lr s).lifecycle = s.lifecycle := rfl
@[simp] theorem writeFrame_fault (k : Key) (c : Nat) (lr : F32 × F32) (s : State) :
    (writeFrame k c lr s).fault = s.fault := rfl
@[simp] theorem writeFrame_noiseSeed (k : Key) (c : Nat) (lr : F32 × F32) (s : State) :
    (writeFrame k c lr s).noiseSeed = s.noiseSeed := rfl
@[simp] theorem writeFrame_pitchBend (k : Key) (c : Nat) (lr : F32 × F32) (s : State) :
    (writeFrame k c lr s).pitchBend = s.pitchBend := rfl
@[simp] theorem writeFrame_sustainPedalPressed (k : Key) (c : Nat) (lr : F32 × F32) (s : State) :
    (writeFrame k c lr s).sustainPedalPressed = s.sustainPedalPressed := rfl
@[simp] theorem writeFrame_modWheel (k : Key) (c : Nat) (lr : F32 × F32) (s : State) :
    (writeFrame k c lr s).modWheel = s.modWheel := rfl
@[simp] theorem writeFrame_lfo (k : Key) (c : Nat) (lr : F32 × F32) (s : State) :
    (writeFrame k c lr s).lfo = s.lfo := rfl
@[simp] theorem writeFrame_lfoStep (k : Key) (c : Nat) (lr : F32 × F32) (s : State) :
    (writeFrame k c lr s).lfoStep = s.lfoStep := rfl
@[simp] theorem writeFrame_lastNote (k : Key) (c : Nat) (lr : F32 × F32) (s : State) :
    (writeFrame k c lr s).lastNote = s.lastNote := rfl
@[simp] theorem writeFrame_filterZip (k : Key) (c : Nat) (lr : F32 × F32) (s : State) :
    (writeFrame k c lr s).filterZip = s.filterZip := rfl
@[simp] theorem writeFrame_vibratoMod (k : Key) (c : Nat) (lr : F32 × F32) (s : State) :
    (writeFrame k c lr s).vibratoMod = s.vibratoMod := rfl
@[simp] theorem writeFrame_pwm (k : Key) (c : Nat) (lr : F32 × F32) (s : State) :
    (writeFrame k c lr s).pwm = s.pwm := rfl
@[simp] theorem writeFrame_written (k : Key) (c : Nat) (lr : F32 × F32) (s : State) :
    (writeFrame k c lr s).written = s.written := rfl
@[simp] theorem writeFrame_notifications (k : Key) (c : Nat) (lr : F32 × F32) (s : State) :
    (writeFrame k c lr s).notifications = s.notifications := rfl
@[simp] theorem writeFrame_snapshot (k : Key) (c : Nat) (lr : F32 × F32) (s : State) :
    (writeFrame k c lr s).snapshot = s.snapshot := rfl
@[simp] theorem writeFrame_block (k : Key) (c : Nat) (lr : F32 × F32) (s : State) :
    (writeFrame k c lr s).block = s.block := rfl
@[simp] theorem writeFrame_commands (k : Key) (c : Nat) (lr : F32 × F32) (s : State) :
    (writeFrame k c lr s).commands = s.commands := rfl
@[simp] theorem writeFrame_reply (k : Key) (c : Nat) (lr : F32 × F32) (s : State) :
    (writeFrame k c lr s).reply = s.reply := rfl
@[simp] theorem writeFrame_draws (k : Key) (c : Nat) (lr : F32 × F32) (s : State) :
    (writeFrame k c lr s).draws = s.draws := rfl

/-! ## `closeVoices` -/

@[simp] theorem closeVoices_params (s : State) : (closeVoices s).params = s.params := rfl
@[simp] theorem closeVoices_voices (s : State) :
    (closeVoices s).voices =
      mapVoices (fun _ v => epilogueVoice s.params.filterPresent v) s.voices := rfl
@[simp] theorem closeVoices_sampleRate (s : State) : (closeVoices s).sampleRate = s.sampleRate := rfl
@[simp] theorem closeVoices_blockSize (s : State) : (closeVoices s).blockSize = s.blockSize := rfl
@[simp] theorem closeVoices_lifecycle (s : State) : (closeVoices s).lifecycle = s.lifecycle := rfl
@[simp] theorem closeVoices_fault (s : State) : (closeVoices s).fault = s.fault := rfl
@[simp] theorem closeVoices_noiseSeed (s : State) : (closeVoices s).noiseSeed = s.noiseSeed := rfl
@[simp] theorem closeVoices_pitchBend (s : State) : (closeVoices s).pitchBend = s.pitchBend := rfl
@[simp] theorem closeVoices_sustainPedalPressed (s : State) :
    (closeVoices s).sustainPedalPressed = s.sustainPedalPressed := rfl
@[simp] theorem closeVoices_modWheel (s : State) : (closeVoices s).modWheel = s.modWheel := rfl
@[simp] theorem closeVoices_lfo (s : State) : (closeVoices s).lfo = s.lfo := rfl
@[simp] theorem closeVoices_lfoStep (s : State) : (closeVoices s).lfoStep = s.lfoStep := rfl
@[simp] theorem closeVoices_lastNote (s : State) : (closeVoices s).lastNote = s.lastNote := rfl
@[simp] theorem closeVoices_filterZip (s : State) : (closeVoices s).filterZip = s.filterZip := rfl
@[simp] theorem closeVoices_vibratoMod (s : State) : (closeVoices s).vibratoMod = s.vibratoMod := rfl
@[simp] theorem closeVoices_pwm (s : State) : (closeVoices s).pwm = s.pwm := rfl
@[simp] theorem closeVoices_written (s : State) : (closeVoices s).written = s.written := rfl
@[simp] theorem closeVoices_notifications (s : State) : (closeVoices s).notifications = s.notifications := rfl
@[simp] theorem closeVoices_snapshot (s : State) : (closeVoices s).snapshot = s.snapshot := rfl
@[simp] theorem closeVoices_block (s : State) : (closeVoices s).block = s.block := rfl
@[simp] theorem closeVoices_out (s : State) : (closeVoices s).out = s.out := rfl
@[simp] theorem closeVoices_commands (s : State) : (closeVoices s).commands = s.commands := rfl
@[simp] theorem closeVoices_reply (s : State) : (closeVoices s).reply = s.reply := rfl
@[simp] theorem closeVoices_draws (s : State) : (closeVoices s).draws = s.draws := rfl

end Sys2Proof.Machine
end

