-- ==== Sys2Proof/Laws/Ops.lean ====
section
/-!
SUPPORT. The spec lemmas of the shared operations: the voice file, the loops over it, registers that may be UNSET, and
the outcome of an operation that may halt.
-/

namespace Sys2Proof.Machine

/-! ## The voice file -/

@[simp] theorem getVoice_setVoice_same (vs : VoiceFile) (i : Fin 8) (v : Voice) :
    getVoice (setVoice vs i v) i = v := by
  fin_cases i <;> rfl

theorem getVoice_setVoice_of_ne (vs : VoiceFile) {i j : Fin 8} (v : Voice) (h : j ≠ i) :
    getVoice (setVoice vs i v) j = getVoice vs j := by
  fin_cases i <;> fin_cases j <;> first | rfl | exact absurd rfl h

theorem getVoice_setVoice (vs : VoiceFile) (i j : Fin 8) (v : Voice) :
    getVoice (setVoice vs i v) j = if j = i then v else getVoice vs j := by
  split
  · subst j; simp
  · exact getVoice_setVoice_of_ne vs v ‹_›

@[simp] theorem getVoice_mapVoices (f : Fin 8 → Voice → Voice) (vs : VoiceFile) (i : Fin 8) :
    getVoice (mapVoices f vs) i = f i (getVoice vs i) := by
  fin_cases i <;> rfl

@[simp] theorem getVoice_replicate (v : Voice) (i : Fin 8) : getVoice (VoiceFile.replicate v) i = v := by
  fin_cases i <;> rfl

/-- Two voice files with equal voices are equal. -/
theorem voiceFile_ext {vs ws : VoiceFile} (h : ∀ i, getVoice vs i = getVoice ws i) : vs = ws := by
  cases vs; cases ws
  have h0 := h 0; have h1 := h 1; have h2 := h 2; have h3 := h 3
  have h4 := h 4; have h5 := h 5; have h6 := h 6; have h7 := h 7
  simp only [getVoice] at h0 h1 h2 h3 h4 h5 h6 h7
  subst h0 h1 h2 h3 h4 h5 h6 h7
  rfl

/-- The voices in order are the eight `getVoice`s. -/
theorem mem_voiceList {vs : VoiceFile} {v : Voice} : v ∈ voiceList vs ↔ ∃ i, getVoice vs i = v := by
  constructor
  · intro h
    simp only [voiceList, List.mem_cons, List.not_mem_nil, or_false] at h
    rcases h with h | h | h | h | h | h | h | h
    exacts [⟨0, h.symm⟩, ⟨1, h.symm⟩, ⟨2, h.symm⟩, ⟨3, h.symm⟩, ⟨4, h.symm⟩, ⟨5, h.symm⟩, ⟨6, h.symm⟩,
      ⟨7, h.symm⟩]
  · rintro ⟨i, rfl⟩
    fin_cases i <;> simp [voiceList, getVoice]

/-- The legato test scans all eight voices (45 R261). -/
theorem isPlayingLegatoStyle_iff {vs : VoiceFile} :
    isPlayingLegatoStyle vs = true ↔ ∃ i, 0 < (getVoice vs i).note := by
  simp only [isPlayingLegatoStyle, List.any_eq_true, mem_voiceList, voiceIsHeld, decide_eq_true_eq]
  constructor
  · rintro ⟨v, ⟨i, rfl⟩, h⟩; exact ⟨i, h⟩
  · rintro ⟨i, h⟩; exact ⟨_, ⟨i, rfl⟩, h⟩

/-! ## Loops that may halt -/

/-- A bind that completes, taken apart. -/
theorem bind_ok {α β : Type} {x : Except Halt α} {f : α → Except Halt β} {b : β} :
    (x >>= f) = .ok b ↔ ∃ a, x = .ok a ∧ f a = .ok b := by
  cases x with
  | ok a => simp [bind, Except.bind]
  | error e => simp [bind, Except.bind]

@[simp] theorem ok_bind {α β : Type} (a : α) (f : α → Except Halt β) :
    ((Except.ok a : Except Halt α) >>= f) = f a := rfl

@[simp] theorem error_bind {α β : Type} (e : Halt) (f : α → Except Halt β) :
    ((Except.error e : Except Halt α) >>= f) = .error e := rfl

@[simp] theorem pure_ok {α : Type} {a b : α} : (pure a : Except Halt α) = .ok b ↔ a = b := by
  simp [pure, Except.pure]

/-- What a completed loop did: each voice's update ran, with some accumulator before and after it. -/
theorem foldVoices_ok {α : Type} {f : Fin 8 → α → Voice → Except Halt (α × Voice)} {a b : α}
    {vs ws : VoiceFile} (h : foldVoices f a vs = .ok (b, ws)) (i : Fin 8) :
    ∃ a1 a2, f i a1 (getVoice vs i) = .ok (a2, getVoice ws i) := by
  simp only [foldVoices, bind_ok, pure_ok, Prod.exists, Prod.mk.injEq] at h
  obtain ⟨a0, w0, h0, a1, w1, h1, a2, w2, h2, a3, w3, h3, a4, w4, h4, a5, w5, h5, a6, w6, h6, a7, w7, h7,
    -, rfl⟩ := h
  fin_cases i
  exacts [⟨_, _, h0⟩, ⟨_, _, h1⟩, ⟨_, _, h2⟩, ⟨_, _, h3⟩, ⟨_, _, h4⟩, ⟨_, _, h5⟩, ⟨_, _, h6⟩, ⟨_, _, h7⟩]

/-- A loop whose updates keep the accumulator and the voice unchanged changes nothing. -/
theorem foldVoices_id {α : Type} {f : Fin 8 → α → Voice → Except Halt (α × Voice)} {a : α} {vs : VoiceFile}
    (h : ∀ i, f i a (getVoice vs i) = .ok (a, getVoice vs i)) : foldVoices f a vs = .ok (a, vs) := by
  have h0 := h 0; have h1 := h 1; have h2 := h 2; have h3 := h 3
  have h4 := h 4; have h5 := h 5; have h6 := h 6; have h7 := h 7
  simp only [getVoice] at h0 h1 h2 h3 h4 h5 h6 h7
  simp [foldVoices, h0, h1, h2, h3, h4, h5, h6, h7, bind, Except.bind, pure, Except.pure]

/-- What a completed update loop did, and when it completes. -/
theorem updateVoices_ok {f : Fin 8 → Voice → Except Halt Voice} {vs ws : VoiceFile} :
    updateVoices f vs = .ok ws ↔ ∀ i, f i (getVoice vs i) = .ok (getVoice ws i) := by
  constructor
  · intro h i
    simp only [updateVoices, bind_ok, Prod.exists, pure_ok] at h
    obtain ⟨⟨⟩, ws', hf, rfl⟩ := h
    obtain ⟨⟨⟩, ⟨⟩, h⟩ := foldVoices_ok hf i
    simp only [bind_ok, pure_ok, Prod.mk.injEq, true_and] at h
    obtain ⟨v, hv, rfl⟩ := h
    exact hv
  · intro h
    have h0 := h 0; have h1 := h 1; have h2 := h 2; have h3 := h 3
    have h4 := h 4; have h5 := h 5; have h6 := h 6; have h7 := h 7
    simp only [getVoice] at h0 h1 h2 h3 h4 h5 h6 h7
    simp [updateVoices, foldVoices, h0, h1, h2, h3, h4, h5, h6, h7, bind, Except.bind, pure, Except.pure]

/-- An update loop completes when every voice's update does. -/
theorem updateVoices_total {f : Fin 8 → Voice → Except Halt Voice} {vs : VoiceFile}
    (h : ∀ i, ∃ w, f i (getVoice vs i) = .ok w) : ∃ ws, updateVoices f vs = .ok ws := by
  choose g hg using h
  refine ⟨⟨g 0, g 1, g 2, g 3, g 4, g 5, g 6, g 7⟩, updateVoices_ok.2 fun i => ?_⟩
  rw [hg i]
  fin_cases i <;> rfl

/-! ## Registers that may be UNSET -/

@[simp] theorem need_true : need true = .ok () := rfl

@[simp] theorem need_false : need false = .error .unset := rfl

/-- A rule that reads registers goes on iff they hold values. -/
@[simp] theorem need_ok {b : Bool} {x : Unit} : need b = .ok x ↔ b = true := by
  cases b <;> simp

/-- A rule that first reads registers completes iff they hold values and the rest completes. -/
theorem need_bind_ok {α : Type} {b : Bool} {f : Unit → Except Halt α} {a : α} :
    (need b >>= f) = .ok a ↔ b = true ∧ f () = .ok a := by
  cases b <;> simp [bind, Except.bind]

theorem notesSet_iff {vs : VoiceFile} : notesSet (voiceList vs) = true ↔ ∀ i, (getVoice vs i).written.note = true := by
  simp only [notesSet, List.all_eq_true, mem_voiceList]
  exact ⟨fun h i => h _ ⟨i, rfl⟩, fun h v ⟨i, hi⟩ => hi ▸ h i⟩

theorem readActive_ok {v : Voice} {b : Bool} :
    readActive v = .ok b ↔ v.env.levelSet = true ∧ voiceIsActive v = b := by
  simp only [readActive, need_bind_ok, pure_ok]

/-- A loop over the voices with a condition that each voice meets. -/
theorem voiceList_all {vs : VoiceFile} {p : Voice → Bool} :
    (voiceList vs).all p = true ↔ ∀ i, p (getVoice vs i) = true := by
  simp only [List.all_eq_true, mem_voiceList]
  exact ⟨fun h i => h _ ⟨i, rfl⟩, fun h v ⟨i, hi⟩ => hi ▸ h i⟩

@[simp] theorem readSet_true (x : F32) : readSet true x = .ok x := rfl

@[simp] theorem readSet_false (x : F32) : readSet false x = .error .unset := rfl

theorem readSet_ok {b : Bool} {x y : F32} : readSet b x = .ok y ↔ b = true ∧ x = y := by
  cases b <;> simp

/-! ## Outcomes -/

@[simp] theorem finish_ok (s t : State) : finish s (.ok t) = .next t := rfl

/-- An operation that may halt ends in a next state either by completing or by entering the fault state. -/
theorem finish_next {s t : State} {r : Except Halt State} (h : finish s r = .next t) :
    r = .ok t ∨ (r = .error .unset ∧ t = enterFault .unsetRead s) := by
  match r, h with
  | .ok _, h => cases h; exact .inl rfl
  | .error .unset, h => cases h; exact .inr ⟨rfl, rfl⟩

theorem unlessStuck_of_none {s : State} {r : Result} (h : s.fault = none) : unlessStuck s r = r := by
  simp [unlessStuck, h]

theorem unlessStuck_of_some {s : State} {r : Result} {c : FaultCode} (h : s.fault = some c) :
    unlessStuck s r = .fault (.stuck c) := by
  simp [unlessStuck, h]

/-- A command that is answered with a next state was given to a machine without a fault. -/
theorem unlessStuck_next {s t : State} {r : Result} (h : unlessStuck s r = .next t) :
    s.fault = none ∧ r = .next t := by
  cases hf : s.fault with
  | none => exact ⟨rfl, by rwa [unlessStuck_of_none hf] at h⟩
  | some c => rw [unlessStuck_of_some hf] at h; cases h

theorem mapNext_next {f : State → State} {r : Result} {t : State} :
    mapNext f r = .next t ↔ ∃ u, r = .next u ∧ t = f u := by
  cases r with
  | next u => simp [mapNext, eq_comm]
  | fault _ => simp [mapNext]
  | refused _ => simp [mapNext]

end Sys2Proof.Machine
end

