-- ==== Sys2Proof/Laws/Halts.lean ====
section
/-!
SUPPORT. Rendering never hangs: the one way in which a frame, its prologue or its epilogue does not complete is a read
of an UNSET register (60_exceptions.md R352). The loop that need not end is a note's (45_allocation.md R260).
-/

namespace Sys2Proof.Machine

/-! ## The shared operations -/

theorem ok_ne_hang {α : Type} (a : α) : (Except.ok a : Except Halt α) ≠ .error .hang := by simp

theorem pure_ne_hang {α : Type} (a : α) : (pure a : Except Halt α) ≠ .error .hang := ok_ne_hang a

/-- A sequence of operations hangs only if one of them does. -/
theorem bind_ne_hang {α β : Type} {x : Except Halt α} {f : α → Except Halt β} (hx : x ≠ .error .hang)
    (hf : ∀ a, f a ≠ .error .hang) : (x >>= f) ≠ .error .hang := by
  cases x with
  | ok a => exact hf a
  | error e => exact fun h => hx (by cases h; rfl)

theorem need_ne_hang (b : Bool) : need b ≠ .error .hang := by cases b <;> simp

theorem readSet_ne_hang (b : Bool) (x : F32) : readSet b x ≠ .error .hang := by cases b <;> simp

theorem readActive_ne_hang (v : Voice) : readActive v ≠ .error .hang :=
  bind_ne_hang (need_ne_hang _) fun _ => pure_ne_hang _

theorem foldVoices_ne_hang {α : Type} {f : Fin 8 → α → Voice → Except Halt (α × Voice)}
    (hf : ∀ i a v, f i a v ≠ .error .hang) (a : α) (vs : VoiceFile) : foldVoices f a vs ≠ .error .hang :=
  bind_ne_hang (hf _ _ _) fun _ => bind_ne_hang (hf _ _ _) fun _ => bind_ne_hang (hf _ _ _) fun _ =>
    bind_ne_hang (hf _ _ _) fun _ => bind_ne_hang (hf _ _ _) fun _ => bind_ne_hang (hf _ _ _) fun _ =>
      bind_ne_hang (hf _ _ _) fun _ => bind_ne_hang (hf _ _ _) fun _ => pure_ne_hang _

theorem updateVoices_ne_hang {f : Fin 8 → Voice → Except Halt Voice} (hf : ∀ i v, f i v ≠ .error .hang)
    (vs : VoiceFile) : updateVoices f vs ≠ .error .hang :=
  bind_ne_hang (foldVoices_ne_hang (fun i _ v => bind_ne_hang (hf i v) fun _ => pure_ne_hang _) () vs)
    fun _ => pure_ne_hang _

/-- An operation that cannot hang completes, or enters the fault state of its first state. -/
theorem finish_of_ne_hang {s : State} {r : Except Halt State} (h : r ≠ .error .hang) :
    (∃ t, r = .ok t ∧ finish s r = .next t) ∨
      (r = .error .unset ∧ finish s r = .next { s with fault := some .unsetRead }) := by
  match r, h with
  | .ok t, _ => exact .inl ⟨t, rfl, rfl⟩
  | .error .unset, _ => exact .inr ⟨rfl, rfl⟩
  | .error .hang, h => exact absurd rfl h

/-! ## The signal path of a voice -/

theorem oscNext_ne_hang (k : Key) (o : Oscillator) : oscNext k o ≠ .error .hang := by
  refine bind_ne_hang (need_ne_hang _) fun _ => ?_
  dsimp only
  split
  · exact pure_ne_hang _
  · exact bind_ne_hang (readSet_ne_hang _ _) fun _ => pure_ne_hang _

theorem envNext_ne_hang (k : Key) (e : Envelope) : envNext k e ≠ .error .hang :=
  bind_ne_hang (need_ne_hang _) fun _ => pure_ne_hang _

theorem voiceFilter_ne_hang (fp : Bool) (k : Key) (x : F32) (v : Voice) : voiceFilter fp k x v ≠ .error .hang := by
  unfold voiceFilter
  split
  · exact bind_ne_hang (bind_ne_hang (need_ne_hang _) fun _ => pure_ne_hang _) fun _ => pure_ne_hang _
  · exact ok_ne_hang _

theorem voiceRender_ne_hang (fp : Bool) (k : Key) (x : F32) (v : Voice) : voiceRender fp k x v ≠ .error .hang :=
  bind_ne_hang (oscNext_ne_hang _ _) fun _ => bind_ne_hang (oscNext_ne_hang _ _) fun _ =>
    bind_ne_hang (readSet_ne_hang _ _) fun _ => bind_ne_hang (voiceFilter_ne_hang _ _ _ _) fun _ =>
      bind_ne_hang (envNext_ne_hang _ _) fun _ => pure_ne_hang _

theorem updatePeriod_ne_hang (s : State) (k : Key) (v : Voice) : updatePeriod s k v ≠ .error .hang :=
  bind_ne_hang (readSet_ne_hang _ _) fun _ => bind_ne_hang (readSet_ne_hang _ _) fun _ => pure_ne_hang _

theorem voiceUpdateFilter_ne_hang (k : Key) (v : Voice) : voiceUpdateFilter k v ≠ .error .hang :=
  bind_ne_hang (envNext_ne_hang _ _) fun _ => bind_ne_hang (readSet_ne_hang _ _) fun _ =>
    bind_ne_hang (readSet_ne_hang _ _) fun _ => bind_ne_hang (readSet_ne_hang _ _) fun _ =>
      bind_ne_hang (readSet_ne_hang _ _) fun _ => bind_ne_hang (readSet_ne_hang _ _) fun _ => pure_ne_hang _

theorem voiceUpdateLfo_ne_hang (fp : Bool) (k : Key) (v : Voice) : voiceUpdateLfo fp k v ≠ .error .hang := by
  refine bind_ne_hang (readSet_ne_hang _ _) fun _ => bind_ne_hang (readSet_ne_hang _ _) fun _ =>
    bind_ne_hang (readSet_ne_hang _ _) fun _ => bind_ne_hang (readSet_ne_hang _ _) fun _ =>
      bind_ne_hang (readSet_ne_hang _ _) fun _ => ?_
  dsimp only
  split
  · exact voiceUpdateFilter_ne_hang _ _
  · exact pure_ne_hang _

/-! ## The render loop -/

theorem prologueVoice_ne_hang (s : State) (k : Key) (v : Voice) : prologueVoice s k v ≠ .error .hang := by
  refine bind_ne_hang (readActive_ne_hang _) fun a => ?_
  split
  · exact bind_ne_hang (updatePeriod_ne_hang _ _ _) fun _ => pure_ne_hang _
  · exact pure_ne_hang _

theorem prologue_ne_hang (k : Key) (s : State) : prologue k s ≠ .error .hang :=
  bind_ne_hang (updateVoices_ne_hang (fun _ _ => prologueVoice_ne_hang _ _ _) _) fun _ => pure_ne_hang _

theorem tickVoice_ne_hang (s : State) (k : Key) (v : Voice) : tickVoice s k v ≠ .error .hang := by
  refine bind_ne_hang (readActive_ne_hang _) fun a => ?_
  split
  · exact bind_ne_hang (need_ne_hang _) fun _ =>
      bind_ne_hang (voiceUpdateLfo_ne_hang _ _ _) fun _ => updatePeriod_ne_hang _ _ _
  · exact pure_ne_hang _

theorem lfoStepOp_ne_hang (k : Key) (s : State) : lfoStepOp k s ≠ .error .hang := by
  refine bind_ne_hang (need_ne_hang _) fun _ => ?_
  dsimp only
  split
  · exact bind_ne_hang (need_ne_hang _) fun _ =>
      bind_ne_hang (updateVoices_ne_hang (fun _ _ => tickVoice_ne_hang _ _ _) _) fun _ => pure_ne_hang _
  · exact pure_ne_hang _

theorem mixVoice_ne_hang (s : State) (x : F32) (k : Key) (lr : F32 × F32) (v : Voice) :
    mixVoice s x k lr v ≠ .error .hang := by
  refine bind_ne_hang (readActive_ne_hang _) fun a => ?_
  split
  · exact bind_ne_hang (voiceRender_ne_hang _ _ _ _) fun _ =>
      bind_ne_hang (need_ne_hang _) fun _ => pure_ne_hang _
  · exact pure_ne_hang _

theorem frameNoise_ne_hang (k : Key) (s : State) : frameNoise k s ≠ .error .hang :=
  bind_ne_hang (bind_ne_hang (need_ne_hang _) fun _ => pure_ne_hang _) fun _ => pure_ne_hang _

theorem frame_ne_hang (k : Key) (channels : Nat) (s : State) : frame k channels s ≠ .error .hang :=
  bind_ne_hang (lfoStepOp_ne_hang _ _) fun _ => bind_ne_hang (frameNoise_ne_hang _ _) fun _ =>
    bind_ne_hang (foldVoices_ne_hang (fun _ _ _ => mixVoice_ne_hang _ _ _ _ _) _ _) fun _ => pure_ne_hang _

theorem epilogue_ne_hang (s : State) : epilogue s ≠ .error .hang :=
  bind_ne_hang (need_ne_hang _) fun _ => pure_ne_hang _

/-- The frame at the cursor, with its prologue and epilogue, never hangs (46 R297). -/
theorem segmentFrame_ne_hang (k : Key) (b : Block) (s : State) : segmentFrame k b s ≠ .error .hang := by
  refine bind_ne_hang ?_ fun _ => bind_ne_hang (frame_ne_hang _ _ _) fun _ => ?_
  · unfold openSegment; split
    · exact prologue_ne_hang _ _
    · exact ok_ne_hang _
  · unfold closeSegment; split
    · exact epilogue_ne_hang _
    · exact ok_ne_hang _

end Sys2Proof.Machine
end

