-- ==== Sys2Proof/Laws/PerInstr.lean ====
section
/-!
SUPPORT. A law of every instruction as syntax: it is encoded either as an event record of three bytes whose data
bytes have bit 7 clear, or as a host command, never both (30_encoding.md R100, R102, R109).
-/

namespace Sys2Proof.Laws.EncodeShape

/-- The instruction has a record of three bytes with masked data bytes and no command, or a command and no
record. -/
def Statement (i : Instr) : Prop :=
  (∃ b0 b1 b2 : Byte, encode i = some [b0, b1, b2] ∧ b1.msb = false ∧ b2.msb = false ∧ encodeCommand i = none) ∨
    (encode i = none ∧ ∃ c, encodeCommand i = some c ∧ commandInstr c = i)

/-- A data byte that `encodeRecord` writes has bit 7 clear. -/
theorem dataByte_msb (d : BitVec 7) : (0#1 ++ d : Byte).msb = false := by
  revert d; decide

/-- Any record that `encodeRecord` writes has the shape. -/
theorem of_record {i : Instr} {status low : BitVec 4} {d1 d2 : BitVec 7}
    (h : encode i = some (encodeRecord status low d1 d2)) (hc : encodeCommand i = none) : Statement i :=
  .inl ⟨_, _, _, h, dataByte_msb d1, dataByte_msb d2, hc⟩

theorem noteOff (ch : BitVec 4) (n vel : BitVec 7) : Statement (.noteOff ch n vel) := of_record rfl rfl

theorem noteOnV0 (ch : BitVec 4) (n : BitVec 7) : Statement (.noteOnV0 ch n) := of_record rfl rfl

theorem noteOn (ch : BitVec 4) (n vel : BitVec 7) : Statement (.noteOn ch n vel) := of_record rfl rfl

theorem polyPressure (ch : BitVec 4) (d1 d2 : BitVec 7) : Statement (.polyPressure ch d1 d2) := of_record rfl rfl

theorem ccModwheel (ch : BitVec 4) (val : BitVec 7) : Statement (.ccModwheel ch val) := of_record rfl rfl

theorem ccSustain (ch : BitVec 4) (val : BitVec 7) : Statement (.ccSustain ch val) := of_record rfl rfl

theorem ccAllNotesOff (ch : BitVec 4) (c val : BitVec 7) : Statement (.ccAllNotesOff ch c val) := of_record rfl rfl

theorem ccOther (ch : BitVec 4) (c val : BitVec 7) : Statement (.ccOther ch c val) := of_record rfl rfl

theorem programChange (ch : BitVec 4) (prog d2 : BitVec 7) : Statement (.programChange ch prog d2) :=
  of_record rfl rfl

theorem channelPressure (ch : BitVec 4) (d1 d2 : BitVec 7) : Statement (.channelPressure ch d1 d2) :=
  of_record rfl rfl

theorem pitchBend (ch : BitVec 4) (bend : BitVec 14) : Statement (.pitchBend ch bend) := of_record rfl rfl

theorem system (low : BitVec 4) (d1 d2 : BitVec 7) : Statement (.system low d1 d2) := of_record rfl rfl

theorem dataFirst (d0 d1 d2 : BitVec 7) : Statement (.dataFirst d0 d1 d2) := of_record rfl rfl

theorem allocate (sampleRate : Number) (blockSize : Int) : Statement (.allocate sampleRate blockSize) :=
  .inr ⟨rfl, _, rfl, rfl⟩

theorem deallocate : Statement .deallocate := .inr ⟨rfl, _, rfl, rfl⟩

theorem reset : Statement .reset := .inr ⟨rfl, _, rfl, rfl⟩

theorem processBlock (snapshot : Snapshot) (events : List Event) (frames channels : Nat) :
    Statement (.processBlock snapshot events frames channels) := .inr ⟨rfl, _, rfl, rfl⟩

end Sys2Proof.Laws.EncodeShape
end

