-- ==== Sys2Proof/Laws/Procedures.lean ====
section
/-!
SUPPORT. The inversion lemmas of the engine's procedures: if one completes, which fields of the state it may have
written. A later proof cites these and does not unfold a procedure to learn what it leaves alone.
-/

namespace Sys2Proof.Machine

/-- The glide distance reads `lastNote`, and every note when one came before and the mode is Legato (45 R265). -/
theorem readGlideDistance_ok {s : State} {n d : Int} :
    readGlideDistance s n = .ok d ↔
      s.written.lastNote = true ∧
        (0 < s.lastNote ∧ s.snapshot.glideMode = 1 → notesSet (voiceList s.voices) = true) ∧
        glideDistance s n = d := by
  unfold readGlideDistance
  rw [need_bind_ok]
  by_cases h : 0 < s.lastNote ∧ s.snapshot.glideMode = 1
  · rw [if_pos h, need_bind_ok, pure_ok]
    simp only [h, and_self, true_implies]
  · simp [h]

/-- `START_VOICE` writes one voice and `lastNote` (45 R265). -/
theorem startVoice_ok {k : Key} {i : Fin 8} {n vel : Int} {s t : State} (h : startVoice k i n vel s = .ok t) :
    ∃ p v, calcPeriod (0 :: k) s.snapshot i n = .ok p ∧
      startedVoice s (2 :: k) p (startPeriod (1 :: k) p (glideDistance s n) s.snapshot.glideBend) n vel
        (getVoice s.voices i) = .ok v ∧
      t = writeLastNote n { s with voices := setVoice s.voices i v } := by
  simp only [startVoice, bind_ok, pure_ok] at h
  obtain ⟨p, hp, d, hd, v, hv, rfl⟩ := h
  obtain ⟨-, -, rfl⟩ := readGlideDistance_ok.1 hd
  exact ⟨p, v, hp, hv, rfl⟩

/-- `RESTART_MONO_VOICE` writes voice 0 and `lastNote` (45 R266). -/
theorem restartMonoVoice_ok {k : Key} {n vel : Int} {s t : State} (h : restartMonoVoice k n vel s = .ok t) :
    ∃ p v, calcPeriod (0 :: k) s.snapshot 0 n = .ok p ∧
      retunedVoice s (1 :: k) p n vel (getVoice s.voices 0) = .ok v ∧
      t = writeLastNote n { s with voices := setVoice s.voices 0 v } := by
  simp only [restartMonoVoice, bind_ok, pure_ok] at h
  obtain ⟨p, hp, v, hv, rfl⟩ := h
  exact ⟨p, v, hp, hv, rfl⟩

/-- A push reads the notes of voices 0 to 6 (45 R267). -/
theorem shiftQueuedNotes_ok {fp : Bool} {vs ws : VoiceFile} :
    shiftQueuedNotes fp vs = .ok ws ↔ notesSet ((voiceList vs).take 7) = true ∧ pushNotes fp vs = ws := by
  simp only [shiftQueuedNotes, need_bind_ok, pure_ok]

/-- A pop reads the notes of slots 1 to 7 (45 R268). -/
theorem nextQueuedNote_ok {vs : VoiceFile} {r : Int × VoiceFile} :
    nextQueuedNote vs = .ok r ↔ notesSet (voiceList vs).tail = true ∧ popNote vs = r := by
  simp only [nextQueuedNote, need_bind_ok, pure_ok]

/-- The allocator reads the levels and targets it scans (45 R262). -/
theorem findFreeVoice_ok {p : Snapshot} {vs : VoiceFile} {i : Fin 8} :
    findFreeVoice p vs = .ok i ↔
      ((scannedVoices p vs).all fun x => x.2.env.levelSet && x.2.env.targetSet) = true ∧ quietestVoice p vs = i := by
  simp only [findFreeVoice, need_bind_ok, pure_ok]

/-- The release scan writes voices, nothing else (44 R234). -/
theorem releaseScan_ok {n : Int} {s t : State} :
    releaseScan n s = .ok t ↔
      notesSet (voiceList s.voices) = true ∧
        (s.written.sustainPedalPressed || !(voiceList s.voices).any (·.note == n)) = true ∧
        releaseVoices n s = t := by
  simp only [releaseScan, need_bind_ok, pure_ok]

/-- What a note-on does: in mono mode with a note held a push and a retune, else the start of a voice (44 R232). -/
theorem noteOnOp_cases {k : Key} {n vel : Int} {s t : State} (h : noteOnOp k n vel s = .ok t) :
    (isMono s.snapshot = true ∧ voiceIsHeld s.voices.v0 = true ∧
      restartMonoVoice k n vel { s with voices := pushNotes s.params.filterPresent s.voices } = .ok t) ∨
    ∃ i, startVoice k i n vel s = .ok t ∧
      if isMono s.snapshot then voiceIsHeld s.voices.v0 = false ∧ i = 0 else i = quietestVoice s.snapshot s.voices := by
  unfold noteOnOp at h
  split at h
  · rename_i hm
    rw [need_bind_ok] at h
    obtain ⟨-, h⟩ := h
    split at h
    · rename_i hh
      obtain ⟨vs, hv, h⟩ := bind_ok.1 h
      obtain ⟨-, rfl⟩ := shiftQueuedNotes_ok.1 hv
      exact .inl ⟨hm, hh, h⟩
    · exact .inr ⟨0, h, by simp_all⟩
  · obtain ⟨i, hi, h⟩ := bind_ok.1 h
    obtain ⟨-, rfl⟩ := findFreeVoice_ok.1 hi
    exact .inr ⟨_, h, by simp_all⟩

/-- A note-on writes voices and `lastNote`, nothing else (44 R232). -/
theorem noteOnOp_ok {k : Key} {n vel : Int} {s t : State} (h : noteOnOp k n vel s = .ok t) :
    ∃ vs, t = writeLastNote n { s with voices := vs } := by
  rcases noteOnOp_cases h with ⟨-, -, h⟩ | ⟨i, h, -⟩
  · obtain ⟨p, v, -, -, rfl⟩ := restartMonoVoice_ok h; exact ⟨_, rfl⟩
  · obtain ⟨p, v, -, -, rfl⟩ := startVoice_ok h; exact ⟨_, rfl⟩

/-- The mono pop takes a note from the queue and, if there was one, retunes voice 0 to it (44 R234). -/
theorem popQueue_cases {k : Key} {s t : State} (h : popQueue k s = .ok t) :
    (0 < (popNote s.voices).1 ∧
      restartMonoVoice k (popNote s.voices).1 (-1) { s with voices := (popNote s.voices).2 } = .ok t) ∨
    (¬ 0 < (popNote s.voices).1 ∧ t = { s with voices := (popNote s.voices).2 }) := by
  unfold popQueue at h
  obtain ⟨r, hr, h⟩ := bind_ok.1 h
  obtain ⟨-, rfl⟩ := nextQueuedNote_ok.1 hr
  dsimp only at h
  split at h
  · exact .inl ⟨‹_›, h⟩
  · exact .inr ⟨‹_›, (pure_ok.1 h).symm⟩

/-- The pop happens only in mono mode, for the note that voice 0 holds (44 R234). -/
theorem popIfSounding_cases {k : Key} {n : Int} {s t : State} (h : popIfSounding k n s = .ok t) :
    (isMono s.snapshot = true ∧ s.voices.v0.note = n ∧ popQueue k s = .ok t) ∨
    (¬ (isMono s.snapshot = true ∧ s.voices.v0.note = n) ∧ t = s) := by
  unfold popIfSounding at h
  split at h
  · rename_i hm
    rw [need_bind_ok] at h
    obtain ⟨-, h⟩ := h
    split at h
    · exact .inl ⟨hm, ‹_›, h⟩
    · rename_i hn
      exact .inr ⟨fun hc => hn hc.2, (pure_ok.1 h).symm⟩
  · rename_i hm
    exact .inr ⟨fun hc => hm hc.1, (pure_ok.1 h).symm⟩

/-- The mono pop writes voices and `lastNote`, nothing else (44 R234). -/
theorem popIfSounding_ok {k : Key} {n : Int} {s t : State} (h : popIfSounding k n s = .ok t) :
    ∃ vs l w, t = { s with voices := vs, lastNote := l, written := { s.written with lastNote := w } } := by
  rcases popIfSounding_cases h with ⟨-, -, h⟩ | ⟨-, rfl⟩
  · rcases popQueue_cases h with ⟨-, h⟩ | ⟨-, rfl⟩
    · obtain ⟨p, v, -, -, rfl⟩ := restartMonoVoice_ok h; exact ⟨_, _, _, rfl⟩
    · exact ⟨_, s.lastNote, s.written.lastNote, rfl⟩
  · exact ⟨t.voices, t.lastNote, t.written.lastNote, rfl⟩

/-- A note-off writes voices and `lastNote`, nothing else (44 R234). -/
theorem noteOffOp_ok {k : Key} {n : Int} {s t : State} (h : noteOffOp k n s = .ok t) :
    ∃ vs l w, t = { s with voices := vs, lastNote := l, written := { s.written with lastNote := w } } := by
  obtain ⟨u, hu, h⟩ := bind_ok.1 h
  obtain ⟨vs, l, w, rfl⟩ := popIfSounding_ok hu
  obtain ⟨-, -, rfl⟩ := releaseScan_ok.1 h
  exact ⟨_, l, w, rfl⟩

/-- The sustain pedal writes its flag, voices and `lastNote`, nothing else (44 R240). -/
theorem sustainOp_ok {k : Key} {val : BitVec 7} {s t : State} (h : sustainOp k val s = .ok t) :
    ∃ vs l w, t =
      { s with
        sustainPedalPressed := pedalPressed val, voices := vs, lastNote := l,
        written := { s.written with lastNote := w, sustainPedalPressed := true } } := by
  unfold sustainOp at h
  dsimp only at h
  split at h
  · cases h; exact ⟨s.voices, s.lastNote, s.written.lastNote, rfl⟩
  · obtain ⟨vs, l, w, rfl⟩ := noteOffOp_ok h; exact ⟨vs, l, w, rfl⟩

/-- The segment prologue writes voices, each by its own prologue (46 R291). -/
theorem prologue_ok {k : Key} {s t : State} (h : prologue k s = .ok t) :
    ∃ vs, (∀ i, prologueVoice s (i.val :: k) (getVoice s.voices i) = .ok (getVoice vs i)) ∧
      t = { s with voices := vs } := by
  simp only [prologue, bind_ok, pure_ok] at h
  obtain ⟨vs, hvs, rfl⟩ := h
  exact ⟨vs, updateVoices_ok.1 hvs, rfl⟩

/-- An LFO tick writes the LFO registers and, voice by voice, the active voices (46 R294). -/
theorem lfoTick_ok {k : Key} {s t : State} (h : lfoTick k s = .ok t) :
    tickSet s.written = true ∧ ∃ vs,
      (∀ i, tickVoice (tickRegisters (8 :: k) s) (i.val :: k) (getVoice s.voices i) = .ok (getVoice vs i)) ∧
      t = { tickRegisters (8 :: k) s with voices := vs } := by
  unfold lfoTick at h
  rw [need_bind_ok] at h
  obtain ⟨hs, h⟩ := h
  obtain ⟨vs, hvs, h⟩ := bind_ok.1 h
  exact ⟨hs, vs, updateVoices_ok.1 hvs, (pure_ok.1 h).symm⟩

/-- `LFO_STEP` counts down, or ticks when the countdown is over (46 R294). -/
theorem lfoStepOp_ok {k : Key} {s t : State} (h : lfoStepOp k s = .ok t) :
    s.written.lfoStep = true ∧
      ((0 < s.lfoStep - 1 ∧ t = { s with lfoStep := s.lfoStep - 1 }) ∨
        (s.lfoStep - 1 ≤ 0 ∧ lfoTick k { s with lfoStep := s.lfoStep - 1 } = .ok t)) := by
  unfold lfoStepOp at h
  rw [need_bind_ok] at h
  obtain ⟨hs, h⟩ := h
  dsimp only at h
  split at h
  · exact ⟨hs, .inr ⟨‹_›, h⟩⟩
  · cases h; exact ⟨hs, .inl ⟨by omega, rfl⟩⟩

/-- The noise draw of a frame: the stepped seed and the scaled sample (40 R132; 46 R293). -/
theorem frameNoise_ok {k : Key} {s : State} {seed : BitVec 32} {x : F32} :
    frameNoise k s = .ok (seed, x) ↔
      s.written.noiseSeed = true ∧ noiseStep s.noiseSeed = seed ∧
        fmul (1 :: k) (noiseSample (0 :: k) (noiseStep s.noiseSeed)) s.snapshot.noiseMix = x := by
  cases h : s.written.noiseSeed <;> simp [frameNoise, noiseNext, h, bind, Except.bind, pure, Except.pure]

/-- One frame: an LFO step, then the noise step and the mix, then the output (46 R293). -/
theorem frame_ok {k : Key} {c : Nat} {s t : State} (h : frame k c s = .ok t) :
    ∃ u x lr vs, lfoStepOp (10 :: k) s = .ok u ∧ frameNoise (11 :: k) u = .ok (noiseStep u.noiseSeed, x) ∧
      foldVoices (fun i lr v => mixVoice u x (i.val :: k) lr v) (f0, f0) u.voices = .ok (lr, vs) ∧
      t = writeFrame (12 :: k) c lr { u with noiseSeed := noiseStep u.noiseSeed, voices := vs } := by
  unfold frame at h
  obtain ⟨u, hu, h⟩ := bind_ok.1 h
  obtain ⟨⟨seed, x⟩, hx, h⟩ := bind_ok.1 h
  obtain ⟨⟨lr, vs⟩, hf, h⟩ := bind_ok.1 h
  obtain ⟨-, rfl, -⟩ := frameNoise_ok.1 hx
  exact ⟨u, x, lr, vs, hu, hx, hf, (pure_ok.1 h).symm⟩

/-- The epilogue reads every voice's level (46 R296). -/
theorem epilogue_ok {s t : State} :
    epilogue s = .ok t ↔ (∀ i, (getVoice s.voices i).env.levelSet = true) ∧ closeVoices s = t := by
  simp only [epilogue, need_bind_ok, pure_ok, voiceList_all]

/-- Closing a segment runs the epilogue after its last frame and does nothing after the others (46 R297). -/
theorem closeSegment_ok {b : Block} {s t : State} (h : closeSegment b s = .ok t) :
    (b.cursor + 1 = segmentEnd b ∧ t = closeVoices s) ∨ (b.cursor + 1 ≠ segmentEnd b ∧ t = s) := by
  unfold closeSegment at h
  split at h
  · exact .inl ⟨‹_›, (epilogue_ok.1 h).2.symm⟩
  · cases h; exact .inr ⟨‹_›, rfl⟩

/-- A frame of a segment, with the prologue before the first and the epilogue after the last (46 R297). -/
theorem segmentFrame_ok {k : Key} {b : Block} {s t : State} (h : segmentFrame k b s = .ok t) :
    ∃ s1 s2, openSegment (0 :: k) b s = .ok s1 ∧ frame (1 :: k) b.channels s1 = .ok s2 ∧
      closeSegment b s2 = .ok t := by
  simp only [segmentFrame, bind_ok] at h
  obtain ⟨s1, h1, s2, h2, h3⟩ := h
  exact ⟨s1, s2, h1, h2, h3⟩

/-- Opening a segment runs the prologue on its first frame and does nothing on the others (46 R297). -/
theorem openSegment_ok {k : Key} {b : Block} {s t : State} (h : openSegment k b s = .ok t) :
    (b.cursor = segmentStart b ∧ prologue k s = .ok t) ∨ (b.cursor ≠ segmentStart b ∧ t = s) := by
  unfold openSegment at h
  split at h
  · exact .inl ⟨‹_›, h⟩
  · cases h; exact .inr ⟨‹_›, rfl⟩

/-- The fields that rendering a frame leaves alone (46 R293, R297). -/
structure SameOutsideRender (s t : State) : Prop where
  params              : t.params = s.params
  sampleRate          : t.sampleRate = s.sampleRate
  blockSize           : t.blockSize = s.blockSize
  lifecycle           : t.lifecycle = s.lifecycle
  fault               : t.fault = s.fault
  pitchBend           : t.pitchBend = s.pitchBend
  sustainPedalPressed : t.sustainPedalPressed = s.sustainPedalPressed
  modWheel            : t.modWheel = s.modWheel
  lastNote            : t.lastNote = s.lastNote
  notifications       : t.notifications = s.notifications
  snapshot            : t.snapshot = s.snapshot
  block               : t.block = s.block
  commands            : t.commands = s.commands
  reply               : t.reply = s.reply
  draws               : t.draws = s.draws

theorem lfoStepOp_frame {k : Key} {s t : State} (h : lfoStepOp k s = .ok t) :
    SameOutsideRender s t ∧ t.noiseSeed = s.noiseSeed ∧ t.out = s.out := by
  rcases (lfoStepOp_ok h).2 with ⟨-, rfl⟩ | ⟨-, h⟩
  · exact ⟨by constructor <;> rfl, rfl, rfl⟩
  · obtain ⟨-, vs, -, rfl⟩ := lfoTick_ok h
    exact ⟨by constructor <;> rfl, rfl, rfl⟩

/-- A frame leaves every register outside rendering alone and steps the noise once (46 R293). -/
theorem frame_frame {k : Key} {c : Nat} {s t : State} (h : frame k c s = .ok t) :
    SameOutsideRender s t ∧ t.noiseSeed = noiseStep s.noiseSeed := by
  obtain ⟨u, x, lr, vs, hu, -, -, rfl⟩ := frame_ok h
  obtain ⟨h1, h2, -⟩ := lfoStepOp_frame hu
  cases h1
  refine ⟨by constructor <;> simpa, ?_⟩
  simp [h2]

/-- A frame step of a segment leaves every register outside rendering alone and steps the noise once
(46 R297). -/
theorem segmentFrame_frame {k : Key} {b : Block} {s t : State} (h : segmentFrame k b s = .ok t) :
    SameOutsideRender s t ∧ t.noiseSeed = noiseStep s.noiseSeed := by
  obtain ⟨s1, s2, h1, h2, h3⟩ := segmentFrame_ok h
  obtain ⟨hf, hn⟩ := frame_frame h2
  have hs : SameOutsideRender s s1 ∧ s1.noiseSeed = s.noiseSeed := by
    rcases openSegment_ok h1 with ⟨-, h1⟩ | ⟨-, rfl⟩
    · obtain ⟨vs, -, rfl⟩ := prologue_ok h1
      exact ⟨by constructor <;> rfl, rfl⟩
    · exact ⟨by constructor <;> rfl, rfl⟩
  obtain ⟨hs, hn1⟩ := hs
  cases hf; cases hs
  rcases closeSegment_ok h3 with ⟨-, rfl⟩ | ⟨-, rfl⟩ <;> exact ⟨by constructor <;> simp_all, by simp [hn, hn1]⟩

end Sys2Proof.Machine
end

