-- ==== Sys2Proof/Laws/Rounding.lean ====
section
/-!
SUPPORT. What rounding to binary32 does, said once: `roundMag` gives the nearest finite magnitude, ties to even, below
the overflow threshold, and infinity from there on (00_scope.md R14 (b), (f)).
-/

namespace Sys2Proof.Machine

/-! ## Rounding to an integer -/

/-- `roundShift n q` is an integer nearest to `n / 2^q`, and even where `n / 2^q` is halfway between two. -/
theorem roundShift_nearest (n q : Nat) :
    2 * n ≤ 2 * (roundShift n q * 2 ^ q) + 2 ^ q ∧ 2 * (roundShift n q * 2 ^ q) ≤ 2 * n + 2 ^ q ∧
      (2 * n = 2 * (roundShift n q * 2 ^ q) + 2 ^ q ∨ 2 * (roundShift n q * 2 ^ q) = 2 * n + 2 ^ q →
        roundShift n q % 2 = 0) := by
  have hd : n / 2 ^ q * 2 ^ q + n % 2 ^ q = n := by rw [Nat.mul_comm]; exact Nat.div_add_mod n _
  have hm : n % 2 ^ q < 2 ^ q := Nat.mod_lt _ (Nat.two_pow_pos q)
  unfold roundShift
  rw [Nat.shiftRight_eq_div_pow]
  dsimp only
  split
  · rw [Nat.add_mul, Nat.one_mul]; omega
  · omega

/-- No multiple of `2^q` is nearer to `n` than the rounded one, and one as near is beside an even one. -/
theorem roundShift_best (n q c : Nat) :
    ((n : Int) - (roundShift n q * 2 ^ q : Nat)).natAbs ≤ ((n : Int) - (c * 2 ^ q : Nat)).natAbs ∧
      (((n : Int) - (c * 2 ^ q : Nat)).natAbs = ((n : Int) - (roundShift n q * 2 ^ q : Nat)).natAbs →
        c ≠ roundShift n q → roundShift n q % 2 = 0) := by
  obtain ⟨h1, h2, h3⟩ := roundShift_nearest n q
  rcases Nat.lt_trichotomy c (roundShift n q) with h | h | h
  · have := Nat.mul_le_mul_right (2 ^ q) h
    rw [Nat.succ_mul] at this
    generalize c * 2 ^ q = a at *
    generalize roundShift n q * 2 ^ q = b at *
    omega
  · subst h; exact ⟨Nat.le_refl _, fun _ hc => absurd rfl hc⟩
  · have := Nat.mul_le_mul_right (2 ^ q) h
    rw [Nat.succ_mul] at this
    generalize c * 2 ^ q = a at *
    generalize roundShift n q * 2 ^ q = b at *
    omega

/-! ## Magnitudes -/

/-- The magnitude with the bits `m` below the sign, in units of 2^-149. -/
def magUnits (m : Nat) : Nat := if m / 2 ^ 23 = 0 then m % 2 ^ 23 else (m % 2 ^ 23 + 2 ^ 23) * 2 ^ (m / 2 ^ 23 - 1)

theorem fixedMag_eq (x : F32) : fixedMag x = magUnits (fmag x) := by
  simp only [fixedMag, magUnits, Nat.shiftLeft_eq]

/-- A significand of 24 bits, or the next power of two, with an exponent: its bits stand for it. -/
theorem magUnits_scaled {d r : Nat} (hr : r ≤ 2 ^ 24) (hd : d = 0 ∨ 2 ^ 23 ≤ r) :
    magUnits (d * 2 ^ 23 + r) = r * 2 ^ d := by
  unfold magUnits
  rcases Nat.lt_or_ge r (2 ^ 23) with h | h
  · obtain rfl : d = 0 := by omega
    rw [if_pos (by omega)]
    omega
  · rw [if_neg (by omega)]
    rcases Nat.lt_or_ge r (2 ^ 24) with h' | h'
    · have h1 : (d * 2 ^ 23 + r) / 2 ^ 23 - 1 = d := by omega
      have h2 : (d * 2 ^ 23 + r) % 2 ^ 23 + 2 ^ 23 = r := by omega
      rw [h1, h2]
    · have h1 : (d * 2 ^ 23 + r) / 2 ^ 23 - 1 = d + 1 := by omega
      have h2 : (d * 2 ^ 23 + r) % 2 ^ 23 + 2 ^ 23 = 2 ^ 23 := by omega
      obtain rfl : r = 2 ^ 24 := by omega
      rw [h1, h2, Nat.pow_succ]
      omega

/-- Larger bits stand for larger magnitudes. -/
theorem magUnits_strictMono : StrictMono magUnits := by
  refine strictMono_nat_of_lt_succ fun m => ?_
  have hs : ∀ m, ∃ d r, m = d * 2 ^ 23 + r ∧ r < 2 ^ 24 ∧ (d = 0 ∨ 2 ^ 23 ≤ r) := by
    intro m
    rcases Nat.lt_or_ge m (2 ^ 23) with h | h
    · exact ⟨0, m, by omega, by omega, .inl rfl⟩
    · exact ⟨m / 2 ^ 23 - 1, m % 2 ^ 23 + 2 ^ 23, by omega, by omega, .inr (by omega)⟩
  obtain ⟨d, r, rfl, hr, hd⟩ := hs m
  rw [magUnits_scaled (by omega) hd, Nat.add_assoc, magUnits_scaled (r := r + 1) (by omega) (by omega)]
  exact Nat.mul_lt_mul_of_pos_right (by omega) (Nat.two_pow_pos d)

/-- A magnitude is a multiple of `2^d`, or has fewer than 24 bits above it. -/
theorem magUnits_grid (m d : Nat) : (∃ c, magUnits m = c * 2 ^ d) ∨ magUnits m < 2 ^ (23 + d) := by
  unfold magUnits
  split
  · exact .inr (Nat.lt_of_lt_of_le (Nat.mod_lt _ (by omega)) (Nat.pow_le_pow_right (by omega) (by omega)))
  · rcases Nat.lt_or_ge (m / 2 ^ 23 - 1) d with h | h
    · refine .inr (Nat.lt_of_lt_of_le
        (Nat.mul_lt_mul_of_pos_right (m := 2 ^ 24) (by omega) (Nat.two_pow_pos _)) ?_)
      rw [← Nat.pow_add]
      exact Nat.pow_le_pow_right (by omega) (by omega)
    · refine .inl ⟨(m % 2 ^ 23 + 2 ^ 23) * 2 ^ (m / 2 ^ 23 - 1 - d), ?_⟩
      rw [Nat.mul_assoc, ← Nat.pow_add]
      congr 2
      omega

/-! ## Rounding to binary32 -/

/-- How many bits a magnitude of `n` units of `2^-(149 + k)` is shifted by to round it. -/
def roundBits (n k : Nat) : Nat := max (n.log2 - 23) k

theorem lt_pow_roundBits (n k : Nat) : n < 2 ^ (24 + roundBits n k) :=
  Nat.lt_of_lt_of_le Nat.lt_log2_self (Nat.pow_le_pow_right (by omega) (by unfold roundBits; omega))

theorem pow_roundBits_le {n k : Nat} (h : k < roundBits n k) : 2 ^ (23 + roundBits n k) ≤ n := by
  have hn : n ≠ 0 := by rintro rfl; simp [roundBits] at h
  refine Nat.le_trans (Nat.pow_le_pow_right (by omega) ?_) (Nat.log2_self_le hn)
  unfold roundBits at h ⊢
  omega

/-- The rounded significand has 24 bits, or is the next power of two. -/
theorem roundShift_le (n k : Nat) : roundShift n (roundBits n k) ≤ 2 ^ 24 := by
  obtain ⟨-, h, -⟩ := roundShift_nearest n (roundBits n k)
  have hn := lt_pow_roundBits n k
  rw [Nat.pow_add] at hn
  by_contra hc
  have := Nat.mul_le_mul_right (2 ^ roundBits n k) (Nat.succ_le_of_lt (Nat.lt_of_not_le hc))
  rw [Nat.succ_mul] at this
  omega

/-- Above the subnormal values the rounded significand has 24 bits. -/
theorem le_roundShift {n k : Nat} (h : k < roundBits n k) : 2 ^ 23 ≤ roundShift n (roundBits n k) := by
  obtain ⟨h1, -, -⟩ := roundShift_nearest n (roundBits n k)
  have hn := pow_roundBits_le h
  rw [Nat.pow_add] at hn
  by_contra hc
  have := Nat.mul_le_mul_right (2 ^ roundBits n k) (Nat.succ_le_of_lt (Nat.lt_of_not_le hc))
  rw [Nat.succ_mul] at this
  have := Nat.two_pow_pos (roundBits n k)
  omega

theorem roundMag_eq (n k : Nat) :
    roundMag n k = min ((roundBits n k - k) * 2 ^ 23 + roundShift n (roundBits n k)) 0x7F800000 := by
  simp only [roundMag, roundBits, Nat.shiftLeft_eq]

/-- `n` units of `2^-(149 + k)` overflow exactly from `2^128 - 2^103` on (00 R14 (b)). -/
theorem roundMag_lt_iff (n k : Nat) : roundMag n k < 0x7F800000 ↔ n < (2 ^ 25 - 1) * 2 ^ (252 + k) := by
  have hr := roundShift_le n k
  have hn := lt_pow_roundBits n k
  have hk : k ≤ roundBits n k := Nat.le_max_right ..
  rw [roundMag_eq]
  rcases Nat.lt_or_ge (roundBits n k - k) 253 with hd | hd
  · have hp : 2 ^ (24 + roundBits n k) ≤ 2 ^ 24 * 2 ^ (252 + k) := by
      rw [← Nat.pow_add]; exact Nat.pow_le_pow_right (by omega) (by omega)
    have := Nat.two_pow_pos (252 + k)
    omega
  · have hl := le_roundShift (n := n) (k := k) (by omega)
    rcases Nat.lt_or_ge 253 (roundBits n k - k) with hd' | hd'
    · have hp := pow_roundBits_le (n := n) (k := k) (by omega)
      have hq : 2 ^ 25 * 2 ^ (252 + k) ≤ 2 ^ (23 + roundBits n k) := by
        rw [← Nat.pow_add]; exact Nat.pow_le_pow_right (by omega) (by omega)
      omega
    · obtain ⟨h1, h2, h3⟩ := roundShift_nearest n (roundBits n k)
      have hq : 2 ^ roundBits n k = 2 * 2 ^ (252 + k) := by
        rw [← Nat.pow_succ']; congr 1; omega
      have hc := Nat.mul_le_mul_right (2 ^ roundBits n k) hr
      rcases Nat.lt_or_ge (roundShift n (roundBits n k)) (2 ^ 24) with h | h
      · have := Nat.mul_le_mul_right (2 ^ roundBits n k) (Nat.succ_le_of_lt h)
        rw [Nat.succ_mul] at this
        by_cases he : roundShift n (roundBits n k) = 2 ^ 24 - 1
        · rw [he, hq] at h1 h3
          omega
        · have := Nat.mul_le_mul_right (2 ^ roundBits n k) (show roundShift n (roundBits n k) ≤ 2 ^ 24 - 2 by omega)
          have := Nat.two_pow_pos (252 + k)
          omega
      · have he : roundShift n (roundBits n k) = 2 ^ 24 := by omega
        rw [he, hq] at h2
        omega

/-- A rounding that does not overflow stands for its rounded significand. -/
theorem magUnits_roundMag {n k : Nat} (h : n < (2 ^ 25 - 1) * 2 ^ (252 + k)) :
    magUnits (roundMag n k) * 2 ^ k = roundShift n (roundBits n k) * 2 ^ roundBits n k ∧
      roundMag n k % 2 = roundShift n (roundBits n k) % 2 := by
  have hk : k ≤ roundBits n k := Nat.le_max_right ..
  have hm := (roundMag_lt_iff n k).2 h
  rw [roundMag_eq] at hm ⊢
  have he : min ((roundBits n k - k) * 2 ^ 23 + roundShift n (roundBits n k)) 0x7F800000 =
      (roundBits n k - k) * 2 ^ 23 + roundShift n (roundBits n k) := by omega
  have hd : roundBits n k - k = 0 ∨ 2 ^ 23 ≤ roundShift n (roundBits n k) := by
    rcases Nat.eq_or_lt_of_le hk with h | h
    · exact .inl (by omega)
    · exact .inr (le_roundShift h)
  rw [he, magUnits_scaled (roundShift_le n k) hd, Nat.mul_assoc, ← Nat.pow_add, Nat.sub_add_cancel hk]
  exact ⟨rfl, by omega⟩

/-- Below the overflow threshold no magnitude is nearer to `n` units of `2^-(149 + k)` than the rounded one, and where
another is as near, the rounded one is even (00 R14 (b)). -/
theorem roundMag_nearest {n k : Nat} (h : n < (2 ^ 25 - 1) * 2 ^ (252 + k)) (m : Nat) :
    ((n : Int) - (magUnits (roundMag n k) * 2 ^ k : Nat)).natAbs ≤ ((n : Int) - (magUnits m * 2 ^ k : Nat)).natAbs ∧
      (((n : Int) - (magUnits m * 2 ^ k : Nat)).natAbs =
          ((n : Int) - (magUnits (roundMag n k) * 2 ^ k : Nat)).natAbs →
        m ≠ roundMag n k → roundMag n k % 2 = 0) := by
  have hk : k ≤ roundBits n k := Nat.le_max_right ..
  obtain ⟨hu, hp⟩ := magUnits_roundMag h
  have inj : ∀ c, magUnits m * 2 ^ k = c * 2 ^ roundBits n k → m ≠ roundMag n k →
      c ≠ roundShift n (roundBits n k) := by
    rintro c hc hm rfl
    exact hm (magUnits_strictMono.injective (Nat.eq_of_mul_eq_mul_right (Nat.two_pow_pos k) (hc.trans hu.symm)))
  have hg : (∃ c, magUnits m * 2 ^ k = c * 2 ^ roundBits n k) ∨
      k < roundBits n k ∧ magUnits m * 2 ^ k < 2 ^ (23 + roundBits n k) := by
    rcases Nat.eq_or_lt_of_le hk with he | hlt
    · exact .inl ⟨magUnits m, by rw [← he]⟩
    · rcases magUnits_grid m (roundBits n k - k) with ⟨c, hc⟩ | hs
      · exact .inl ⟨c, by rw [hc, Nat.mul_assoc, ← Nat.pow_add, Nat.sub_add_cancel hk]⟩
      · refine .inr ⟨hlt, ?_⟩
        have := Nat.mul_lt_mul_of_pos_right hs (Nat.two_pow_pos k)
        rwa [← Nat.pow_add, Nat.add_assoc, Nat.sub_add_cancel hk] at this
  rw [hu, hp]
  rcases hg with ⟨c, hc⟩ | ⟨hlt, hs⟩
  · rw [hc]
    exact ⟨(roundShift_best n _ c).1, fun e hm => (roundShift_best n _ c).2 e (inj c hc hm)⟩
  · have hb := (roundShift_best n (roundBits n k) (2 ^ 23)).1
    have hn := pow_roundBits_le hlt
    rw [← Nat.pow_add] at hb
    omega

end Sys2Proof.Machine
end

