-- ==== Sys2Proof/Laws/Steps.lean ====
section
/-!
SUPPORT. What one event, one frame step and one render call can do, said once: the inversion lemmas that every
statement about `step` goes through.
-/

namespace Sys2Proof.Machine

/-- A record decodes to an event instruction, never to a host command (30 R109). -/
theorem encodeCommand_of_decode {bytes : List Byte} {i : Instr} (h : decode bytes = .ok i) :
    encodeCommand i = none := by
  have key : ∀ st l d1 d2, encodeCommand (decodeFields st l d1 d2) = none := by
    intro st l d1 d2
    unfold decodeFields decodeNoteOn decodeController
    repeat' split
    all_goals rfl
  match bytes, h with
  | [_], h => cases h; exact key _ _ _ _
  | [_, _], h => cases h; exact key _ _ _ _
  | [_, _, _], h => cases h; exact key _ _ _ _

/-- An event that has a next state enters the fault state or writes some of six registers: the voices, `lastNote`,
the pitch bend, the mod wheel, the pedal and the notifications (44), with the bits that say they hold values. -/
theorem event_next {i : Instr} {s t : State} (hi : encodeCommand i = none) (h : exec i s = .next t) :
    t = enterFault .unsetRead s ∨
      ∃ vs l pb mw sp nt, ∃ w : EngineWritten, t =
        { s with
          voices := vs, lastNote := l, pitchBend := pb, modWheel := mw, sustainPedalPressed := sp,
          notifications := nt,
          written := { s.written with
            lastNote := w.lastNote, pitchBend := w.pitchBend, modWheel := w.modWheel,
            sustainPedalPressed := w.sustainPedalPressed } } := by
  have note : ∀ {r : Except Halt State}, finish s r = .next t →
      (r = .ok t → ∃ vs l sp a b, t =
        { s with
          voices := vs, lastNote := l, sustainPedalPressed := sp,
          written := { s.written with lastNote := a, sustainPedalPressed := b } }) →
      t = enterFault .unsetRead s ∨
        ∃ vs l pb mw sp nt, ∃ w : EngineWritten, t =
          { s with
            voices := vs, lastNote := l, pitchBend := pb, modWheel := mw, sustainPedalPressed := sp,
            notifications := nt,
            written := { s.written with
              lastNote := w.lastNote, pitchBend := w.pitchBend, modWheel := w.modWheel,
              sustainPedalPressed := w.sustainPedalPressed } } := by
    intro r hr hok
    rcases finish_next hr with hr | ⟨-, hr⟩
    · obtain ⟨vs, l, sp, a, b, rfl⟩ := hok hr
      exact .inr ⟨vs, l, s.pitchBend, s.modWheel, sp, s.notifications,
        { s.written with lastNote := a, sustainPedalPressed := b }, rfl⟩
    · exact .inl hr
  cases i <;> simp only [encodeCommand, reduceCtorEq] at hi
  case noteOff => exact note h fun hr => by obtain ⟨vs, l, w, rfl⟩ := noteOffOp_ok hr; exact ⟨_, _, _, w, _, rfl⟩
  case noteOnV0 => exact note h fun hr => by obtain ⟨vs, l, w, rfl⟩ := noteOffOp_ok hr; exact ⟨_, _, _, w, _, rfl⟩
  case noteOn => exact note h fun hr => by obtain ⟨vs, rfl⟩ := noteOnOp_ok hr; exact ⟨_, _, _, true, _, rfl⟩
  case ccSustain => exact note h fun hr => by obtain ⟨vs, l, w, rfl⟩ := sustainOp_ok hr; exact ⟨_, _, _, w, _, rfl⟩
  case pitchBend => cases h; exact .inr ⟨_, _, _, _, _, _, { s.written with pitchBend := true }, rfl⟩
  case ccModwheel => cases h; exact .inr ⟨_, _, _, _, _, _, { s.written with modWheel := true }, rfl⟩
  case ccAllNotesOff => cases h; exact .inr ⟨_, _, _, _, _, _, { s.written with sustainPedalPressed := true }, rfl⟩
  all_goals cases h; exact .inr ⟨s.voices, _, _, _, _, _, s.written, rfl⟩

/-- Applying a record to the state of a block: as `event_next`, and `evIndex` moves on (44 R230; 47 R320). -/
theorem applyEvent_next {bytes : List Byte} {s t : State} (h : applyEvent bytes s = .next t) :
    t = afterEvent (enterFault .unsetRead s) ∨
      ∃ vs l pb mw sp nt, ∃ w : EngineWritten, t = afterEvent
        { s with
          voices := vs, lastNote := l, pitchBend := pb, modWheel := mw, sustainPedalPressed := sp,
          notifications := nt,
          written := { s.written with
            lastNote := w.lastNote, pitchBend := w.pitchBend, modWheel := w.modWheel,
            sustainPedalPressed := w.sustainPedalPressed } } := by
  unfold applyEvent at h
  split at h
  · rename_i i hi
    obtain ⟨u, hu, rfl⟩ := mapNext_next.1 h
    rcases event_next (encodeCommand_of_decode hi) hu with rfl | ⟨_, _, _, _, _, _, w, rfl⟩
    · exact .inl rfl
    · exact .inr ⟨_, _, _, _, _, _, w, rfl⟩
  · cases h
    exact .inr ⟨s.voices, _, _, _, _, _, s.written, rfl⟩

/-- A frame step that has a next state rendered its frame, or entered the fault state (46 R297). -/
theorem frameStep_next {b : Block} {s t : State} (h : frameStep b s = .next t) :
    (∃ u, segmentFrame (stepKey s) b s = .ok u ∧ t = afterFrame u) ∨ t = enterFault .unsetRead s := by
  rcases finish_next h with h | ⟨-, h⟩
  · simp only [bind_ok, pure_ok] at h
    obtain ⟨u, hu, rfl⟩ := h
    exact .inl ⟨u, hu, rfl⟩
  · exact .inr h

/-- A frame of a segment writes its channels once (20 R82; 46 R293). -/
theorem segmentFrame_out {k : Key} {b : Block} {s t : State} (h : segmentFrame k b s = .ok t) :
    ∃ left right mono, t.out = outFrame b.channels left right mono s.out := by
  obtain ⟨s1, s2, h1, h2, h3⟩ := segmentFrame_ok h
  obtain ⟨u, x, lr, vs, hu, -, -, rfl⟩ := frame_ok h2
  have hu := (lfoStepOp_frame hu).2.2
  have h1 : s1.out = s.out := by
    rcases openSegment_ok h1 with ⟨-, h1⟩ | ⟨-, rfl⟩
    · obtain ⟨vs, -, rfl⟩ := prologue_ok h1; rfl
    · rfl
  rcases closeSegment_ok h3 with ⟨-, rfl⟩ | ⟨-, rfl⟩ <;> exact ⟨_, _, _, by rw [← h1, ← hu]; rfl⟩

/-- The output lists after one more frame hold one more frame (20 R82; log 15). -/
theorem outFrame_wf {b : Block} {o : OutBuffers} (h0 : o.ch0.length = b.cursor)
    (h1 : o.ch1.length = if b.channels = 2 then b.cursor else 0) (left right mono : F32) :
    (outFrame b.channels left right mono o).ch0.length = (advanceCursor b).cursor ∧
      (outFrame b.channels left right mono o).ch1.length =
        if (advanceCursor b).channels = 2 then (advanceCursor b).cursor else 0 := by
  unfold outFrame advanceCursor
  split <;> simp_all

end Sys2Proof.Machine
end

