-- ==== Sys2Proof/Laws/Voice.lean ====
section
/-!
SUPPORT. The inversion lemmas of the signal path: which registers an oscillator, an envelope, a filter or a voice must
hold for its procedure to complete, and what the procedure then leaves. A later proof cites these and does not unfold the
reads.
-/

namespace Sys2Proof.Machine

/-- `OSC.NEXT` reads its cycle registers, and `phaseMax` inside a cycle (40 R136). -/
theorem oscNext_ok {k : Key} {o u : Oscillator} {x : F32} :
    oscNext k o = .ok (x, u) ↔
      o.cycleSet = true ∧
        ∃ p r, p = { o with phase := fadd (0 :: k) o.phase o.inc } ∧
          (if fle p.phase fPiOver4 then r = oscCycleStart (1 :: k) p
            else o.phaseMaxSet = true ∧ r = oscMidCycle (3 :: k) o.phaseMax p) ∧
          x = fsub (2 :: k) r.1 r.2.dc ∧ u = r.2 := by
  unfold oscNext
  rw [need_bind_ok]
  refine and_congr_right fun _ => ?_
  dsimp only
  split
  · rename_i h
    rw [pure_ok, Prod.mk.injEq]
    constructor
    · rintro ⟨rfl, rfl⟩; exact ⟨_, _, rfl, by rw [if_pos h], rfl, rfl⟩
    · rintro ⟨_, _, rfl, hr, rfl, rfl⟩; rw [if_pos h] at hr; subst hr; exact ⟨rfl, rfl⟩
  · rename_i h
    rw [bind_ok]
    constructor
    · rintro ⟨pm, hpm, hr⟩
      obtain ⟨hs, rfl⟩ := readSet_ok.1 hpm
      obtain ⟨rfl, rfl⟩ := Prod.mk.inj (pure_ok.1 hr)
      exact ⟨_, _, rfl, by rw [if_neg h]; exact ⟨hs, rfl⟩, rfl, rfl⟩
    · rintro ⟨_, _, rfl, hr, rfl, rfl⟩
      rw [if_neg h] at hr
      obtain ⟨hs, rfl⟩ := hr
      exact ⟨_, readSet_ok.2 ⟨hs, rfl⟩, rfl⟩

/-- `ENV.NEXT` reads the level, the target and the multiplier (41 R162). -/
theorem envNext_ok {k : Key} {e : Envelope} {r : F32 × Envelope} :
    envNext k e = .ok r ↔ envSet e = true ∧ envStep k e = r := by
  simp only [envNext, need_bind_ok, pure_ok]

/-- `ENV.ATTACK` reads the level (41 R163). -/
theorem envAttack_ok {k : Key} {e u : Envelope} :
    envAttack k e = .ok u ↔
      e.levelSet = true ∧ u =
        { e with
          level := fadd (1 :: k) e.level (twiceSilence (0 :: k)), target := fAttackTarget,
          multiplier := e.attackMultiplier, targetSet := true, multiplierSet := true } := by
  unfold envAttack envNudge
  cases h : e.levelSet <;> simp [pure, Except.pure, eq_comm]

/-- `FILTER.RENDER` reads the coefficients and the integrators (42 R183). -/
theorem filterRender_ok {k : Key} {x : F32} {f : Filter} {r : F32 × Filter} :
    filterRender k x f = .ok r ↔ filterSet f = true ∧ filterStep k x f = r := by
  simp only [filterRender, need_bind_ok, pure_ok]

/-- The optional filter stage writes the voice's filter, nothing else (42 R184; 43 R202). -/
theorem voiceFilter_ok {fp : Bool} {k : Key} {x y : F32} {v u : Voice} (h : voiceFilter fp k x v = .ok (y, u)) :
    if fp then filterRender k x v.filter = .ok (y, u.filter) ∧ u = { v with filter := u.filter }
    else y = x ∧ u = v := by
  unfold voiceFilter at h
  split at h
  · obtain ⟨⟨y', f⟩, hf, h⟩ := bind_ok.1 h
    obtain ⟨rfl, rfl⟩ := Prod.mk.inj (pure_ok.1 h)
    rw [if_pos ‹_›]
    exact ⟨hf, rfl⟩
  · cases h
    rw [if_neg ‹_›]
    exact ⟨rfl, rfl⟩

/-- `VOICE.RENDER` steps both oscillators, then the leaky integrator, the filter and the amplitude envelope; it writes
these and nothing else (43 R202). -/
theorem voiceRender_ok {fp : Bool} {k : Key} {input y : F32} {v u : Voice}
    (h : voiceRender fp k input v = .ok (y, u)) :
    ∃ s1 s2 out e,
      oscNext (0 :: k) v.osc1 = .ok (s1, u.osc1) ∧ oscNext (1 :: k) v.osc2 = .ok (s2, u.osc2) ∧
      v.written.saw = true ∧ u.saw = fsub (4 :: k) (fadd (3 :: k) (fmul (2 :: k) v.saw fLeak) s1) s2 ∧
      (if fp then filterRender (6 :: k) (fadd (5 :: k) u.saw input) v.filter = .ok (out, u.filter)
        else out = fadd (5 :: k) u.saw input ∧ u.filter = v.filter) ∧
      envNext (7 :: k) v.env = .ok (e, u.env) ∧ y = fmul (8 :: k) out e ∧
      u = { v with osc1 := u.osc1, osc2 := u.osc2, saw := u.saw, filter := u.filter, env := u.env } := by
  unfold voiceRender at h
  obtain ⟨⟨s1, osc1⟩, h1, h⟩ := bind_ok.1 h
  obtain ⟨⟨s2, osc2⟩, h2, h⟩ := bind_ok.1 h
  obtain ⟨saw, h3, h⟩ := bind_ok.1 h
  obtain ⟨⟨out, w⟩, h4, h⟩ := bind_ok.1 h
  obtain ⟨⟨e, env⟩, h5, h⟩ := bind_ok.1 h
  obtain ⟨rfl, rfl⟩ := Prod.mk.inj (pure_ok.1 h)
  obtain ⟨hs, rfl⟩ := readSet_ok.1 h3
  replace h4 := voiceFilter_ok h4
  refine ⟨s1, s2, out, e, ?_⟩
  cases fp with
  | true =>
    obtain ⟨hf, hw⟩ : filterRender _ _ _ = _ ∧ w = _ := h4
    rw [hw] at h5 ⊢
    exact ⟨h1, h2, hs, rfl, hf, h5, rfl, rfl⟩
  | false =>
    obtain ⟨rfl, rfl⟩ := h4
    refine ⟨h1, h2, hs, rfl, ?_, h5, rfl, rfl⟩
    exact (if_neg Bool.false_ne_true).mpr ⟨rfl, rfl⟩

/-- `UPDATE_PERIOD` reads the voice's period and the pitch bend and writes the oscillators' periods (46 R292). -/
theorem updatePeriod_ok {s : State} {k : Key} {v u : Voice} :
    updatePeriod s k v = .ok u ↔
      v.written.period = true ∧ s.written.pitchBend = true ∧ u =
        { v with
          osc1 := { v.osc1 with period := fmul (0 :: k) v.period s.pitchBend },
          osc2 := { v.osc2 with
            period := fmul (1 :: k) (fmul (0 :: k) v.period s.pitchBend) s.snapshot.detune } } := by
  unfold updatePeriod readPeriod
  cases h1 : v.written.period <;> cases h2 : s.written.pitchBend <;> simp [eq_comm]

/-- The prologue of a voice reads its level; it loads an active voice and leaves an inactive one alone (46 R291). -/
theorem prologueVoice_ok {s : State} {k : Key} {v u : Voice} :
    prologueVoice s k v = .ok u ↔
      v.env.levelSet = true ∧
        if voiceIsActive v then ∃ w, updatePeriod s k v = .ok w ∧ u = copySegmentRegisters s w else u = v := by
  unfold prologueVoice readActive
  rw [bind_ok]
  simp only [need_bind_ok, pure_ok]
  constructor
  · rintro ⟨_, ⟨hl, rfl⟩, h⟩
    refine ⟨hl, ?_⟩
    split at h
    · obtain ⟨w, hw, h⟩ := bind_ok.1 h
      rw [if_pos ‹_›]; exact ⟨w, hw, (pure_ok.1 h).symm⟩
    · rw [if_neg ‹_›]; exact (pure_ok.1 h).symm
  · rintro ⟨hl, h⟩
    refine ⟨_, ⟨hl, rfl⟩, ?_⟩
    split at h
    · obtain ⟨w, hw, rfl⟩ := h
      rw [if_pos ‹_›, hw]; rfl
    · rw [if_neg ‹_›, h]; rfl

/-- The filter's part of an LFO tick reads the five registers it is computed from, steps the filter envelope and writes
the coefficients (43 R206). -/
theorem voiceUpdateFilter_ok {k : Key} {v u : Voice} (h : voiceUpdateFilter k v = .ok u) :
    ∃ fenv, envNext (0 :: k) v.filterEnv = .ok (fenv, u.filterEnv) ∧ v.written.cutoff = true ∧
      v.written.filterMod = true ∧ v.written.filterEnvDepth = true ∧ v.written.pitchBend = true ∧
      v.written.filterQ = true ∧
      u.filter = filterUpdate (5 :: k)
        (fclamp (fdiv (4 :: k) (fmul (3 :: k) v.cutoff (Config.exp
          (fadd (2 :: k) v.filterMod (fmul (1 :: k) v.filterEnvDepth fenv)))) v.pitchBend) f30 f20000)
        v.filterQ v.filter ∧
      u = { v with filterEnv := u.filterEnv, filter := u.filter } := by
  unfold voiceUpdateFilter at h
  obtain ⟨⟨fenv, fe⟩, he, h⟩ := bind_ok.1 h
  obtain ⟨c, hc, h⟩ := bind_ok.1 h
  obtain ⟨m, hm, h⟩ := bind_ok.1 h
  obtain ⟨d, hd, h⟩ := bind_ok.1 h
  obtain ⟨b, hb, h⟩ := bind_ok.1 h
  obtain ⟨q, hq, h⟩ := bind_ok.1 h
  obtain ⟨sc, rfl⟩ := readSet_ok.1 hc
  obtain ⟨sm, rfl⟩ := readSet_ok.1 hm
  obtain ⟨sd, rfl⟩ := readSet_ok.1 hd
  obtain ⟨sb, rfl⟩ := readSet_ok.1 hb
  obtain ⟨sq, rfl⟩ := readSet_ok.1 hq
  cases pure_ok.1 h
  exact ⟨fenv, he, sc, sm, sd, sb, sq, rfl, rfl⟩

/-- `VOICE.UPDATELFO` reads the five registers of the glide and writes the period, the pan position and its gains, and
then what the filter's part writes (43 R206). -/
theorem voiceUpdateLfo_ok {fp : Bool} {k : Key} {v u : Voice} (h : voiceUpdateLfo fp k v = .ok u) :
    v.written.period = true ∧ v.written.target = true ∧ v.written.glideRate = true ∧ v.written.panning = true ∧
      v.written.targetPanning = true ∧
      ∃ w, w = voiceGains (2 :: k) (writePanning (glideStep (1 :: k) v.glideRate v.panning v.targetPanning)
          (writePeriod (glideStep (0 :: k) v.glideRate v.period v.target) v)) ∧
        if fp then voiceUpdateFilter (3 :: k) w = .ok u else u = w := by
  unfold voiceUpdateLfo at h
  obtain ⟨p, hp, h⟩ := bind_ok.1 h
  obtain ⟨t, ht, h⟩ := bind_ok.1 h
  obtain ⟨g, hg, h⟩ := bind_ok.1 h
  obtain ⟨x, hx, h⟩ := bind_ok.1 h
  obtain ⟨y, hy, h⟩ := bind_ok.1 h
  obtain ⟨sp, rfl⟩ := readSet_ok.1 hp
  obtain ⟨st, rfl⟩ := readSet_ok.1 ht
  obtain ⟨sg, rfl⟩ := readSet_ok.1 hg
  obtain ⟨sx, rfl⟩ := readSet_ok.1 hx
  obtain ⟨sy, rfl⟩ := readSet_ok.1 hy
  refine ⟨sp, st, sg, sx, sy, _, rfl, ?_⟩
  dsimp only at h
  split at h
  · rw [if_pos ‹_›]; exact h
  · rw [if_neg ‹_›]; exact (pure_ok.1 h).symm

/-- An LFO tick of a voice reads its level; it updates an active voice and leaves an inactive one alone (46 R294). -/
theorem tickVoice_ok {s : State} {k : Key} {v u : Voice} (h : tickVoice s k v = .ok u) :
    v.env.levelSet = true ∧
      if voiceIsActive v then
        ∃ a w, a = { v with
              osc1 := { v.osc1 with modulation := s.vibratoMod }, osc2 := { v.osc2 with modulation := s.pwm } } ∧
          voiceUpdateLfo s.params.filterPresent (0 :: k)
            (if s.params.filterPresent then writeFilterMod s.filterZip a else a) = .ok w ∧
          updatePeriod s (1 :: k) w = .ok u
      else u = v := by
  unfold tickVoice at h
  obtain ⟨b, hb, h⟩ := bind_ok.1 h
  obtain ⟨hl, rfl⟩ := readActive_ok.1 hb
  refine ⟨hl, ?_⟩
  split at h
  · rw [if_pos ‹_›]
    rw [need_bind_ok] at h
    obtain ⟨w, hw, h⟩ := bind_ok.1 h.2
    exact ⟨_, w, rfl, hw, h⟩
  · rw [if_neg ‹_›]; exact (pure_ok.1 h).symm

/-- The mix of a voice reads its level; an active voice is rendered once and added through its pan gains, an inactive one
left alone (46 R293). -/
theorem mixVoice_ok {s : State} {x : F32} {k : Key} {lr mix : F32 × F32} {v u : Voice}
    (h : mixVoice s x k lr v = .ok (mix, u)) :
    v.env.levelSet = true ∧
      if voiceIsActive v then
        ∃ o, voiceRender s.params.filterPresent (0 :: k) x v = .ok (o, u) ∧ u.written.gains = true ∧
          mix = (fadd (2 :: k) lr.1 (fmul (1 :: k) o u.panLeft), fadd (4 :: k) lr.2 (fmul (3 :: k) o u.panRight))
      else mix = lr ∧ u = v := by
  unfold mixVoice at h
  obtain ⟨b, hb, h⟩ := bind_ok.1 h
  obtain ⟨hl, rfl⟩ := readActive_ok.1 hb
  refine ⟨hl, ?_⟩
  split at h
  · rw [if_pos ‹_›]
    obtain ⟨⟨o, w⟩, hr, h⟩ := bind_ok.1 h
    rw [need_bind_ok] at h
    obtain ⟨rfl, rfl⟩ := Prod.mk.inj (pure_ok.1 h.2)
    exact ⟨o, hr, h.1, rfl⟩
  · rw [if_neg ‹_›]
    obtain ⟨rfl, rfl⟩ := Prod.mk.inj (pure_ok.1 h)
    exact ⟨rfl, rfl⟩

end Sys2Proof.Machine
end

