-- ==== Sys2Proof/Tests/Slice0.lean ====
section
/-!
SUPPORT. Small tests with values from the spec (95_test_vectors.md and the rules' own examples), a smoke test of
WellFormed with an ill-formed term for each check, and a witness for the hypotheses of every statement.
-/

namespace Sys2Proof.Tests

-- One theorem at a time: many `decide` proofs elaborated side by side hold a thread, and its stack, each.
set_option Elab.async false

open Sys2Proof.Machine Sys2Proof.Claims

/-! ## WellFormed refuses ill-formed terms -/

theorem test_noteOn_velocity_zero_refused : (Instr.noteOn 0 60 0).wellFormed = false := by decide
theorem test_allNotesOff_low_controller_refused : (Instr.ccAllNotesOff 0 0x77 0).wellFormed = false := by decide
theorem test_other_modwheel_refused : (Instr.ccOther 0 0x01 0).wellFormed = false := by decide
theorem test_other_sustain_refused : (Instr.ccOther 0 0x40 0).wellFormed = false := by decide
theorem test_other_allNotesOff_refused : (Instr.ccOther 0 0x78 0).wellFormed = false := by decide
theorem test_allocate_wide_refused : (Instr.allocate (.f32 0) (2 ^ 31)).wellFormed = false := by decide
theorem test_allocate_low_refused : (Instr.allocate (.f32 0) (-(2 ^ 31) - 1)).wellFormed = false := by decide
theorem test_block_wide_voices_refused :
    (Instr.processBlock { snapshotP0 with numVoices := 2 ^ 31 } [] 0 1).wellFormed = false := by decide
theorem test_block_wide_glide_refused :
    (Instr.processBlock { snapshotP0 with glideMode := 2 ^ 31 } [] 0 1).wellFormed = false := by decide
theorem test_block_wide_waveform_refused :
    (Instr.processBlock { snapshotP0 with lfoWaveform := 2 ^ 31 } [] 0 1).wellFormed = false := by decide
theorem test_block_accepted : (Instr.processBlock snapshotP0 [] 0 1).wellFormed = true := by decide

/-! ## Decoding: 95 V-S6-1, one word of the table for each row (30 R107) -/

theorem test_decode_noteOff : decodeTableWord 24 0x803C40 = some (.noteOff 0 60 64) := by decide
theorem test_decode_noteOnV0 : decodeTableWord 24 0x903C00 = some (.noteOnV0 0 60) := by decide
theorem test_decode_noteOn : decodeTableWord 24 0x9F3C64 = some (.noteOn 15 60 100) := by decide
theorem test_decode_polyPressure : decodeTableWord 24 0xA03C64 = some (.polyPressure 0 60 100) := by decide
theorem test_decode_modwheel : decodeTableWord 24 0xB00140 = some (.ccModwheel 0 64) := by decide
theorem test_decode_sustain : decodeTableWord 24 0xB0407F = some (.ccSustain 0 127) := by decide
theorem test_decode_allNotesOff : decodeTableWord 24 0xB07800 = some (.ccAllNotesOff 0 120 0) := by decide
theorem test_decode_other : decodeTableWord 24 0xB07700 = some (.ccOther 0 119 0) := by decide
theorem test_decode_programChange : decodeTableWord 24 0xC00500 = some (.programChange 0 5 0) := by decide
theorem test_decode_channelPressure : decodeTableWord 24 0xD04000 = some (.channelPressure 0 64 0) := by decide
theorem test_decode_pitchBend : decodeTableWord 24 0xE00040 = some (.pitchBend 0 8192) := by decide
theorem test_decode_system : decodeTableWord 24 0xF80000 = some (.system 8 0 0) := by decide
theorem test_decode_dataFirst : decodeTableWord 24 0x3C4000 = some (.dataFirst 60 64 0) := by decide

/-- 95 V-S6-1: masked data bytes. -/
theorem test_decode_masked : decode [0x90, 0xBC, 0xE4] = .ok (.noteOn 0 60 100) := by decide
/-- 95 V-S6-1: the controller is masked before it selects a row. -/
theorem test_decode_masked_controller : decode [0xB0, 0xC0, 0x7F] = .ok (.ccSustain 0 127) := by decide
/-- 44 R243: a one-byte control change is controller 0. -/
theorem test_decode_short : decode [0xB3] = .ok (.ccOther 3 0 0) := by decide
theorem test_encode_pitchBend : encode (.pitchBend 0 16383) = some [0xE0, 0x7F, 0x7F] := by decide

/-! ## Values that no open function decides -/

/-- 40 R132: the first two draws after a reset (95 V-NOISE-1). -/
theorem test_noise_first : noiseStep noiseResetSeed = 4009202705 ∧ noiseSample [] 4009202705 = 0x3F5DEF28#32 := by
  decide +kernel
theorem test_noise_second : noiseSample [] (noiseStep 4009202705) = 0x3E54B674#32 := by decide +kernel

/-- What `f` says of the result of an operation that completes. -/
def okOf {α β : Type} (f : α → β) : Except Halt α → Option β
  | .ok a => some (f a)
  | .error _ => none

def halfEnv : Envelope :=
  { Envelope.initial with
    attackMultiplier := fHalf, decayMultiplier := fHalf, sustainLevel := fHalf, releaseMultiplier := fHalf }

/-- 95 V-ENV-1: attack, then the first two steps, the first handing off. -/
theorem test_envelope_attack : okOf (·.level) (envAttack [] halfEnv) = some 0x3951B717#32 ∧
    okOf (·.1) (do envNext [] (← envAttack [] halfEnv)) = some 0x3F800347#32 ∧
    okOf (·.1) (do envNext [] (← envNext [] (← envAttack [] halfEnv)).2) = some 0x3F400347#32 := by decide +kernel
/-- 95 V-ENV-6: the activity threshold is strict. -/
theorem test_envelope_active : envIsActive { halfEnv with level := 0x38D1B717#32 } = false ∧
    envIsActive { halfEnv with level := 0x38D1B719#32 } = true := by decide +kernel

/-- 95 V-VOICE-1: pan positions. -/
theorem test_pan : panOf [] 48 = 0xBF000000#32 ∧ panOf [] 61 = 0x3D2AAAAB#32 ∧ panOf [] 127 = 0x3F800000#32 := by
  decide +kernel
/-- 95 V-ALLOC-3: the velocity law at both ends. -/
theorem test_velocity : velocityGain [] 1 = 0x410E6668#32 ∧ velocityGain [] 127 = 0x4309EC8C#32 := by decide +kernel
/-- 95 V-ALLOC-2: note 127's raw period is doubled once, and twice with a detune of 0.5. -/
theorem test_doubling : doubleToFloor [] f1 400 0x406100B9#32 = .ok 0x40E100B9#32 ∧
    doubleToFloor [] fHalf 400 0x406100B9#32 = .ok 0x416100B9#32 := by decide +kernel
/-- 47 R330: a binary64 rate is rounded to binary32 (48000.0). -/
theorem test_rate_rounded : fofNumber [] (.f64 0x40E7700000000000#64) = 0x473B8000#32 := by decide +kernel
/-- 46 R290: triangle and square at 0. -/
theorem test_lfo_shapes : lfoShape [] 1 f0 = f1 ∧ lfoShape [] 3 f0 = f1 ∧ lfoShape [] 3 0x80000000#32 = f1 := by
  decide +kernel

/-! ## States -/

/-- READY, with the snapshot `P0` of 95 §2 loaded. -/
def ready : State := { State.reset with snapshot := snapshotP0 }

/-- `ready` in mono mode. -/
def mono : State := { ready with snapshot := { snapshotP0 with numVoices := 1 } }

/-- `ready` with a block of one frame and these events in progress. -/
def inBlock (events : List Event) : State := { ready with block := some (startBlock events 1 2) }

/-- One record at offset 0. -/
def record (bytes : List Byte) : List Event := [{ offset := 0, bytes := bytes }]

/-- A voice that sounds note `n`, in decay at level 0.5, with every register written. -/
def sounding (n : Int) : Voice :=
  { Voice.initial f0 with
    note := n, period := f100, target := f60, glideRate := fHalf,
    env := { halfEnv with level := fHalf, target := fHalf, multiplier := fHalf },
    filterEnv := halfEnv, cutoff := f100, filterQ := f1, pitchBend := f1,
    written := { Written.byReset with
      period := true, target := true, glideRate := true, cutoff := true, filterMod := true, filterQ := true,
      pitchBend := true, filterEnvDepth := true } }

/-- A slot that holds a queued note and never sounded. -/
def queued (n : Int) : Voice := { Voice.initial f0 with note := n }

/-- `s` with voice 0 sounding a note and slot 1 holding another. -/
def withNotes (s : State) (n q : Int) : State :=
  { s with voices := { s.voices with v0 := sounding n, v1 := queued q } }

/-- A not-a-number tuning, under which every period is that not-a-number, whatever `Exp` is (45 R260). -/
def nanTuned (s : State) : State := { s with snapshot := { s.snapshot with tune := 0x7FC00000#32 } }

/-- A NaN leaves the doubling loop at once (45 R260). -/
theorem calcPeriod_nanTuned (k : Key) (s : State) (v : Fin 8) (n : Int) :
    ∃ p, calcPeriod k (nanTuned s).snapshot v n = .ok p := by
  have hn : fisNaN 0x7FC00000#32 = true := by decide
  have h : fisNaN (rawPeriod (0 :: k) (nanTuned s).snapshot v n) = true := fisNaN_fmul_left _ _ hn
  have hb : ∀ k' d, belowFloor k' d (rawPeriod (0 :: k) (nanTuned s).snapshot v n) = false := by
    intro k' d
    simp only [belowFloor, flt_nan_left _ h, flt_nan_left _ (fisNaN_fmul_left _ _ h), Bool.or_false]
  refine ⟨rawPeriod (0 :: k) (nanTuned s).snapshot v n, ?_⟩
  show doubleToFloor _ _ (399 + 1) _ = _
  rw [doubleToFloor, hb]
  rfl

/-! ## One step of each instruction -/

/-- 95 V-EV-2: the mod wheel. -/
theorem test_modwheel : modWheelAmount [] 127 = 0x3DA52934#32 ∧ modWheelAmount [] 64 = 0x3CA7C5AC#32 ∧
    modWheelAmount [] 0 = f0 := by decide +kernel
/-- 95 V-EV-3: the pedal's threshold is 64. -/
theorem test_pedal : pedalPressed 0x3F = false ∧ pedalPressed 0x40 = true ∧ pedalPressed 0x7F = true := by decide
/-- 95 V-S8-7: the centre bend is a ratio of exactly 1.0. -/
theorem test_bend_centre : bendRatio [] 8192 = f1 := by decide +kernel
/-- 44 R245's example. -/
theorem test_programChange : step (inBlock (record [0xC0, 0x05])) =
    .next (afterEvent { inBlock (record [0xC0, 0x05]) with notifications := [.programChange 5] }) := by rfl
/-- 44 R246's example. -/
theorem test_ignored : step (inBlock (record [0xD0, 0x40])) = .next (afterEvent (inBlock (record [0xD0, 0x40]))) := by
  rfl

/-- A next state's value of `f`, if the outcome is one. -/
def observe {α : Type} (f : State → α) : Result → Option α
  | .next s => some (f s)
  | .fault _ => none
  | .refused _ => none

/-- 44 R233's example: a note-off frees the voice, which stays active. -/
theorem test_noteOff : observe (fun t => (t.voices.v0.note, voiceIsActive t.voices.v0))
    (exec (.noteOff 0 60 64) (withNotes ready 60 0)) = some (0, true) := by decide +kernel
/-- 44 R240's example: with the pedal down a note-off marks the voice SUSTAINED. -/
theorem test_noteOff_pedal : observe (fun t => (t.voices.v0.note, t.voices.v0.env.target))
    (exec (.noteOnV0 0 60) { withNotes ready 60 0 with sustainPedalPressed := true }) = some (-1, fHalf) := by
  decide +kernel
/-- 44 R240's example: pedal-up releases a SUSTAINED voice and frees it. -/
theorem test_pedal_up : observe (fun t => (t.voices.v0.note, t.voices.v0.env.target, t.sustainPedalPressed))
    (exec (.ccSustain 0 0) { withNotes ready (-1) 0 with sustainPedalPressed := true }) =
      some (0, f0, false) := by decide +kernel
/-- 44 R242's example. -/
theorem test_allNotesOff : observe (fun t => (t.voices.v0.note, voiceIsActive t.voices.v0, t.sustainPedalPressed))
    (exec (.ccAllNotesOff 0 0x7B 0) { withNotes ready 60 0 with sustainPedalPressed := true }) =
      some (0, false, false) := by decide +kernel
/-- 44 R236; 45 R265: a note-on for note 0 starts voice 0 at the tuning's own period, at the attack's level. -/
theorem test_noteOn : observe (fun t => (t.voices.v0.target, t.voices.v0.env.level, t.voices.v0.osc1.amplitude))
    (exec (.noteOn 0 0 127) ready) = some (0x45A88FCA#32, 0x3951B717#32, 0x3E0D3BF4#32) := by decide +kernel
/-- 45 R267: a legato note-on pushes the held note to slot 1 and the queued one to slot 2. -/
theorem test_noteOn_legato :
    observe (fun t => (t.voices.v0.note, t.voices.v1.note, t.voices.v2.note, t.voices.v0.env.target))
      (exec (.noteOn 0 0 100) (withNotes mono 60 55)) = some (0, 60, 55, fHalf) := by decide +kernel
/-- 45 R268's example: the pop takes slot 2 of `0, 60, 55`. -/
theorem test_queue_pop :
    okOf (fun r => (r.1, queueView r.2)) (nextQueuedNote { ready.voices with v2 := queued 60, v3 := queued 55 }) =
      some (60, [55]) := by decide +kernel
/-- 95 V-S8-3: the allocator takes the quietest voice out of attack, though quieter ones are in attack. -/
theorem test_allocator :
    okOf id (findFreeVoice snapshotP0
      { v0 := { sounding 1 with env := { halfEnv with level := fHalf } },
        v1 := { sounding 1 with env := { halfEnv with level := 0x3E99999A#32 } },
        v2 := { sounding 1 with env := { halfEnv with level := 0x3E99999A#32 } },
        v3 := { sounding 1 with env := { halfEnv with level := 0x3E4CCCCD#32 } },
        v4 := { sounding 1 with env := { halfEnv with level := 0x3F666666#32 } },
        v5 := { sounding 1 with env := { halfEnv with target := f2 } },
        v6 := { sounding 1 with env := { halfEnv with target := f2 } },
        v7 := { sounding 1 with env := { halfEnv with target := f2 } } }) = some 3 := by decide +kernel

/-- 95 V-HOST-1: a block before `RESET` faults. -/
theorem test_block_not_ready : observe (·.fault) (exec (.processBlock snapshotP0 [] 4 2) State.construction) =
    some (some .notReady) := by decide +kernel
/-- 95 V-HOST-1: illegal arguments are refused and the life state kept. -/
theorem test_allocate_refused : observe (fun t => (t.reply, t.lifecycle))
    (exec (.allocate (.f32 0) 512) State.construction) = some (.refused .allocArgs, .unallocated) := by decide +kernel
/-- 47 R330's example, with a binary64 rate. -/
theorem test_allocate : observe (fun t => (t.sampleRate, t.blockSize, t.lifecycle))
    (exec (.allocate (.f64 0x40E7700000000000#64) 512) ready) = some (0x473B8000#32, 512, .allocated) := by
  decide +kernel
/-- 47 R331's example. -/
theorem test_deallocate : observe (·.lifecycle) (exec .deallocate ready) = some .unallocated := by decide
/-- 47 R332: a `RESET` in UNALLOCATED writes the reset values and stays there. -/
theorem test_reset : observe (fun t => (t.noiseSeed, t.pitchBend, t.lifecycle))
    (exec .reset State.construction) = some (22222, f1, .unallocated) := by decide +kernel
/-- 95 V-HOST-2: the snapshot is checked before the channels. -/
theorem test_block_refused : observe (·.reply)
    (exec (.processBlock { snapshotP0 with numVoices := 0 } [] 4 3) ready) = some (.refused .paramRange) := by
  decide +kernel
/-- 95 V-HOST-1: a frame of a READY core with no note is +0.0 on both channels (its LFO tick is at phase 0). -/
theorem test_silent_frame : observe (·.out) (step { ready with block := some (startBlock [] 4 2) }) =
    some { ch0 := [f0], ch1 := [f0] } := by decide +kernel

/-! ## Witnesses: states and operands that meet the hypotheses of the statements -/

theorem witness_decodeEncodeRoundTrip :
    (Instr.ccOther 15 119 127).wellFormed = true ∧ encode (.ccOther 15 119 127) = some [0xBF, 0x77, 0x7F] ∧
      encodeCommand (.allocate (.f32 f1) 0) = some (.allocate (.f32 f1) 0) := by decide
theorem witness_decodedRecordEncodesBack : decode [0xBF, 0xF8, 0xFF] = .ok (.ccAllNotesOff 15 120 127) := by decide
theorem witness_longRecord : 3 < ([0xF0, 0x01, 0x02, 0x03] : List Byte).length := by decide
theorem witness_channelSelectsNothing : statusNibble 0x90 = statusNibble 0x9F := by decide
theorem witness_tableAndDispatchAgree : ([0xF8] : List Byte) ≠ [] := by decide

theorem witness_step_event : (inBlock (record [0xF8])).fault = none ∧
    (inBlock (record [0xF8])).block = some (startBlock (record [0xF8]) 1 2) ∧
    (startBlock (record [0xF8]) 1 2).events[(startBlock (record [0xF8]) 1 2).evIndex]? =
      some { offset := 0, bytes := [0xF8] } ∧ decode [0xF8] = .ok (.system 8 0 0) := by decide
theorem witness_step_long_record : (inBlock (record [0xF0, 1, 2, 3])).fault = none ∧
    (inBlock (record [0xF0, 1, 2, 3])).block = some (startBlock (record [0xF0, 1, 2, 3]) 1 2) ∧
    (startBlock (record [0xF0, 1, 2, 3]) 1 2).events[0]? = some { offset := 0, bytes := [0xF0, 1, 2, 3] } ∧
    3 < ([0xF0, 1, 2, 3] : List Byte).length := by decide
/-- A block of two frames with an event before the second, at its first frame and, the event applied, at its second. -/
def splitBlock (cursor evIndex : Nat) : Block :=
  { events := [{ offset := 1, bytes := [0xF8] }], frames := 2, channels := 2, cursor := cursor, evIndex := evIndex }
/-- The frames before the event: a segment from 0 to before 1, its first frame also its last. -/
theorem witness_step_frame_before_event : SegmentStartsAt (splitBlock 0 0) 0 ∧ SegmentStopsAt (splitBlock 0 0) 1 ∧
    (splitBlock 0 0).cursor < 1 :=
  ⟨rfl, .inl ⟨{ offset := 1, bytes := [0xF8] }, rfl, rfl⟩, by decide⟩
/-- The frames after it: a segment from 1 to before N. -/
theorem witness_step_frame_after_event : SegmentStartsAt (splitBlock 1 1) 1 ∧ SegmentStopsAt (splitBlock 1 1) 2 ∧
    (splitBlock 1 1).cursor < 2 :=
  ⟨⟨{ offset := 1, bytes := [0xF8] }, rfl, rfl⟩, .inr ⟨rfl, rfl⟩, by decide⟩
/-- A segment of two frames, at its first and at its last. -/
theorem witness_step_last_frames : SegmentStartsAt (startBlock [] 2 1) 0 ∧ SegmentStopsAt (startBlock [] 2 1) 2 ∧
    (startBlock [] 2 1).cursor < 2 ∧ SegmentStartsAt { startBlock [] 2 1 with cursor := 1 } 0 ∧
    SegmentStopsAt { startBlock [] 2 1 with cursor := 1 } 2 ∧
    ({ startBlock [] 2 1 with cursor := 1 } : Block).cursor < 2 :=
  ⟨rfl, .inr ⟨rfl, rfl⟩, by decide, rfl, .inr ⟨rfl, rfl⟩, by decide⟩
/-- A core whose voice 3 is inactive with an envelope target. -/
def idleTarget (b : Block) : State :=
  { ready with
    block := some b,
    voices := setVoice ready.voices 3 { Voice.initial f0 with env := { halfEnv with target := fHalf } } }
/-- 46 R296, R297: the epilogue runs after the last frame of a segment and after no other. -/
theorem test_segment_epilogue :
    observe (fun t => (t.voices.v3.env.target, t.block.map (·.cursor))) (step (idleTarget (startBlock [] 2 1))) =
      some (fHalf, some 1) ∧
    observe (fun t => (t.voices.v3.env.target, t.block.map (·.cursor)))
      (step (idleTarget { startBlock [] 2 1 with cursor := 1 })) = some (f0, some 2) ∧
    observe (·.voices.v3.env.target) (step (idleTarget (splitBlock 0 0))) = some f0 := by decide +kernel
/-- A core whose voice 0 sounds with a period of 100.0 and oscillator periods of 0.0, the pitch bend at 2.0. -/
def staleVoice (b : Block) : State := { withNotes ready 60 0 with block := some b, pitchBend := f2, lfoStep := 9 }
/-- 46 R291, R297: the prologue runs before the first frame of a segment and before no other. -/
theorem test_segment_prologue :
    observe (·.voices.v0.osc1.period) (step (staleVoice (startBlock [] 2 1))) = some 0x43480000#32 ∧
    observe (·.voices.v0.osc1.period) (step (staleVoice { startBlock [] 2 1 with cursor := 1 })) = some f0 ∧
    observe (·.voices.v0.osc1.period) (step (staleVoice (splitBlock 1 1))) = some 0x43480000#32 := by decide +kernel
theorem witness_step_end : (startBlock [] 0 2).events[0]? = none ∧
    (startBlock [] 0 2).frames ≤ (startBlock [] 0 2).cursor := by decide
theorem witness_step_command : ({ ready with commands := [.reset] } : State).block = none ∧
    ({ ready with commands := [.reset] } : State).commands = .reset :: [] := by decide
theorem witness_step_idle : ready.fault = none ∧ ready.block = none ∧ ready.commands = [] := by decide
theorem witness_stuck : (enterFault .notReady ready).fault = some .notReady := by decide

/-- A tuning of 0 (no legal snapshot) hangs, whatever `Exp` is: `Exp(-0.0) = 1.0` (45 R260; 00 R10). -/
theorem witness_hang : registersSet State.reset = true ∧ State.reset.snapshot.numVoices ≠ 1 ∧
    okOf id (findFreeVoice State.reset.snapshot State.reset.voices) = some 0 ∧
    calcPeriod (0 :: stepKey State.reset) State.reset.snapshot 0 0 = .error .hang := by decide +kernel
theorem witness_hang_mono : registersSet { mono with snapshot := { mono.snapshot with tune := f0 } } = true ∧
    mono.snapshot.numVoices = 1 ∧ calcPeriod (0 :: stepKey mono) { mono.snapshot with tune := f0 } 0 0 = .error .hang := by
  decide +kernel
theorem witness_onlyNotesCanHang : State.reset.fault = none ∧
    (match exec (.noteOn 0 0 1) State.reset with | .fault .hang => true | _ => false) = true := by decide +kernel
theorem witness_hangIsExact : doubleToFloor [] f1 doublingFuel f0 = .error .hang := by decide +kernel
theorem witness_pedalDown : 64 ≤ (64 : BitVec 7).toNat := by decide

theorem witness_registersSet : registersSet ready = true ∧ registersSet State.construction = false := by decide +kernel
theorem witness_noteOff_poly : registersSet ready = true ∧ releasedNote (.noteOff 0 60 0) = some 60 ∧
    ready.snapshot.numVoices ≠ 1 := by decide +kernel
theorem witness_noteOff_other_note : registersSet (withNotes mono 60 55) = true ∧ releasedNote (.noteOnV0 0 61) = some 61 ∧
    (withNotes mono 60 55).voices.v0.note ≠ 61 := by decide +kernel
theorem witness_pedalUp_empty_queue : registersSet (withNotes mono (-1) 0) = true ∧ releasedNote (.ccSustain 0 63) = some (-1) ∧
    (withNotes mono (-1) 0).snapshot.numVoices = 1 ∧ (withNotes mono (-1) 0).voices.v0.note = -1 ∧
    queueView (withNotes mono (-1) 0).voices = [] := by decide +kernel
theorem witness_monoNoteOffPopsQueue : registersSet (nanTuned (withNotes mono 60 55)) = true ∧
    releasedNote (.noteOff 0 60 0) = some 60 ∧
    (nanTuned (withNotes mono 60 55)).snapshot.numVoices = 1 ∧
    (nanTuned (withNotes mono 60 55)).voices.v0.note = 60 ∧
    queueView (nanTuned (withNotes mono 60 55)).voices = 55 :: [] ∧
    ∃ p, calcPeriod (0 :: stepKey (nanTuned (withNotes mono 60 55))) (nanTuned (withNotes mono 60 55)).snapshot 0 55 =
      .ok p :=
  ⟨by decide +kernel, by decide, by decide, by decide, by decide, calcPeriod_nanTuned _ _ _ _⟩
/-- A pedal-up of a SUSTAINED voice 0 with a note queued (44 R240). -/
theorem witness_monoPedalUpPopsQueue : registersSet (nanTuned (withNotes mono (-1) 55)) = true ∧
    releasedNote (.ccSustain 0 0) = some (-1) ∧
    (nanTuned (withNotes mono (-1) 55)).voices.v0.note = -1 ∧
    queueView (nanTuned (withNotes mono (-1) 55)).voices = 55 :: [] := by decide +kernel

theorem witness_noteOn_poly : registersSet ready = true ∧ ready.snapshot.numVoices ≠ 1 ∧
    okOf id (findFreeVoice ready.snapshot ready.voices) = some 0 ∧
    calcPeriod (0 :: stepKey ready) ready.snapshot 0 0 = .ok 0x45A88FCA#32 ∧
    oscSafe (getVoice ready.voices 0).osc1 = true := by decide +kernel
theorem witness_noteOn_mono : registersSet mono = true ∧ mono.snapshot.numVoices = 1 ∧ mono.voices.v0.note ≤ 0 ∧
    calcPeriod (0 :: stepKey mono) mono.snapshot 0 0 = .ok 0x45A88FCA#32 ∧ oscSafe mono.voices.v0.osc1 = true := by
  decide +kernel
/-- A ready core whose square-wave branch is taken (45 R265), with first oscillators that rise. -/
def squareReady : State :=
  { mono with
    snapshot := { mono.snapshot with pwmDepth := fHalf },
    voices := mapVoices (fun _ v =>
      { v with osc1 := { v.osc1 with inc := f1, phaseMax := f100, phaseMaxSet := true } }) mono.voices }
theorem witness_noteOn_squareWave : squareWaveOn squareReady.snapshot = true ∧ registersSet squareReady = true ∧
    squareReady.snapshot.numVoices = 1 ∧ squareReady.voices.v0.note ≤ 0 ∧
    calcPeriod (0 :: stepKey squareReady) squareReady.snapshot 0 0 = .ok 0x45A88FCA#32 ∧
    oscSafe squareReady.voices.v0.osc1 = true ∧ flt f0 squareReady.voices.v0.osc1.inc = true := by decide +kernel
theorem witness_monoLegato : registersSet (withNotes mono 60 55) = true ∧
    (withNotes mono 60 55).snapshot.numVoices = 1 ∧ 0 < (withNotes mono 60 55).voices.v0.note ∧
    calcPeriod (0 :: stepKey (withNotes mono 60 55)) (withNotes mono 60 55).snapshot 0 0 = .ok 0x45A88FCA#32 := by
  decide +kernel
theorem witness_periodReachesFloor : calcPeriod [] snapshotP0 0 0 = .ok 0x45A88FCA#32 := by decide +kernel

theorem witness_allocator : 1 ≤ snapshotP0.numVoices ∧ snapshotP0.numVoices ≤ 8 ∧
    (∀ j, (getVoice ready.voices j).env.levelSet = true ∧ (getVoice ready.voices j).env.targetSet = true) ∧
    envIsInAttack (getVoice ready.voices 7).env = false ∧
    flt (getVoice ready.voices 7).env.level 0x42C80000#32 = true ∧
    voiceIsActive (getVoice ready.voices 7) = false := by decide +kernel
theorem witness_allocator_all_in_attack :
    ∀ j, envIsInAttack (getVoice (VoiceFile.replicate { sounding 60 with env := { halfEnv with target := f2 } }) j).env =
      true := by decide +kernel
theorem witness_queueIsAStack : (∀ i, (getVoice (withNotes mono 60 55).voices i).written.note = true) ∧
    queueView (withNotes mono 60 55).voices = 55 :: [] ∧ (∀ i, (getVoice ready.voices i).written.note = true) ∧
    queueView ready.voices = [] := by decide
theorem witness_pan : (36 : BitVec 7).toNat ≤ 36 ∧ (60 : BitVec 7).toNat = 60 ∧ 84 ≤ (84 : BitVec 7).toNat := by decide

/-- 00 R14 (b), (f): ties to even, the overflow threshold, and halves of the least subnormal value. -/
theorem test_rate_ties : fofNumber [] (.f64 0x3FF0000010000000#64) = 0x3F800000#32 ∧
    fofNumber [] (.f64 0x3FF0000030000000#64) = 0x3F800002#32 ∧
    fofNumber [] (.f64 0x47EFFFFFEFFFFFFF#64) = 0x7F7FFFFF#32 ∧
    fofNumber [] (.f64 0x47EFFFFFF0000000#64) = 0x7F800000#32 ∧
    fofNumber [] (.f64 0x3690000000000000#64) = 0x00000000#32 ∧
    fofNumber [] (.f64 0x36A8000000000000#64) = 0x00000002#32 := by
  decide +kernel
/-- The least rate that is accepted, with block size 0 (47 R330). -/
theorem witness_allocate : ready.fault = none ∧ RoundedRate (.f32 0x00000001#32) 0x00000001#32 ∧
    fisFinite 0x00000001#32 = true ∧ flt 0x00000000#32 0x00000001#32 = true ∧ (0 : Int) ≤ 0 ∧
    observe (fun t => (t.sampleRate, t.blockSize, t.reply)) (exec (.allocate (.f32 0x00000001#32) 0) ready) =
      some (0x00000001#32, 0, .done) := ⟨rfl, rfl, by decide +kernel⟩
/-- A rate of 1e39 rounds to an infinity, a block size of -1 is below 0: both are refused (47 R330). -/
theorem witness_allocate_refused : RoundedRate (.f64 0x48078287F49C4A1D#64) 0x7F800000#32 ∧
    fisFinite 0x7F800000#32 = false ∧ ¬ (0 : Int) ≤ -1 ∧ flt 0x00000000#32 0x80000000#32 = false ∧
    observe (·.reply) (exec (.allocate (.f64 0x48078287F49C4A1D#64) 0) ready) = some (.refused .allocArgs) ∧
    observe (·.reply) (exec (.allocate (.f32 f1) (-1)) ready) = some (.refused .allocArgs) :=
  ⟨⟨_, _, rfl, rfl, by decide +kernel⟩, by decide +kernel⟩
theorem witness_commands : ready.fault = none ∧ ready.lifecycle = .ready ∧ State.construction.fault = none ∧
    State.construction.lifecycle ≠ .ready := by decide
/-- `P0` of 95 §2 is legal with the filter and without it. -/
theorem legal_P0 (fp : Bool) : LegalSnapshot fp snapshotP0 := by
  constructor <;> try simp only [FinitePositive, InUnitOpen, InUnitClosed]
  all_goals first | decide +kernel | exact fun _ => by decide +kernel
/-- 10 R45: the largest legal values. -/
theorem legal_boundaries (fp : Bool) : LegalSnapshot fp
    { snapshotP0 with
      numVoices := 1, envSustain := 0x3F800000#32, glideRate := 0x3F800000#32, glideMode := 2, lfoWaveform := 3,
      envAttack := 0x3F7FFFFF#32, lfoInc := 0x40C90FDA#32, tune := 0x00000001#32 } := by
  constructor <;> try simp only [FinitePositive, InUnitOpen, InUnitClosed]
  all_goals first | decide +kernel | exact fun _ => by decide +kernel
theorem witness_processBlock : LegalSnapshot ready.params.filterPresent snapshotP0 ∧ snapshotP0.numVoices = 8 ∧
    (∀ e ∈ record [0xF8], e.bytes ≠ [] ∧ e.offset < 1) ∧
    (record [0xF8]).Pairwise (fun a b => a.offset ≤ b.offset) := ⟨legal_P0 _, by decide +kernel⟩
/-- 10 R45: each field just outside its range. -/
theorem witness_refusal_paramRange (fp : Bool) :
    ¬ LegalSnapshot fp { snapshotP0 with numVoices := 0 } ∧ ¬ LegalSnapshot fp { snapshotP0 with numVoices := 9 } ∧
    ¬ LegalSnapshot fp { snapshotP0 with envAttack := 0x3F800000#32 } ∧
    ¬ LegalSnapshot fp { snapshotP0 with envSustain := 0x3F800001#32 } ∧
    ¬ LegalSnapshot fp { snapshotP0 with glideRate := 0x3F800001#32 } ∧
    ¬ LegalSnapshot fp { snapshotP0 with lfoInc := 0x40C90FDB#32 } ∧
    ¬ LegalSnapshot fp { snapshotP0 with tune := 0x00000000#32 } :=
  ⟨fun h => absurd h.numVoices (by decide), fun h => absurd h.numVoices (by decide),
    fun h => absurd h.envAttack.2 (by decide +kernel), fun h => absurd h.envSustain.2 (by decide +kernel),
    fun h => absurd h.glideRate.2 (by decide +kernel), fun h => absurd h.lfoInc.2 (by decide +kernel),
    fun h => absurd h.tune.2 (by decide +kernel)⟩
/-- 10 R45; log 28: a filter field out of range matters only when the filter is present. -/
theorem witness_absent_filter : ¬ LegalSnapshot true { snapshotP0 with filterQ := 0x00000000#32 } ∧
    LegalSnapshot false { snapshotP0 with filterQ := 0x00000000#32 } := by
  refine ⟨fun h => absurd (h.filterQ rfl).2 (by decide +kernel), ?_⟩
  constructor <;> try simp only [FinitePositive, InUnitOpen, InUnitClosed]
  all_goals decide +kernel
/-- The model's test of 10 R45 at the same boundaries. -/
theorem test_legality : snapshotLegal true snapshotP0 = true ∧
    [0, 1, 8, 9].map (fun n => snapshotLegal true { snapshotP0 with numVoices := n }) = [false, true, true, false] ∧
    snapshotLegal true { snapshotP0 with envAttack := f1 } = false ∧
    snapshotLegal true { snapshotP0 with envSustain := f1, glideRate := f1 } = true ∧
    snapshotLegal true { snapshotP0 with lfoInc := 0x40C90FDB#32 } = false ∧
    snapshotLegal true { snapshotP0 with tune := f0 } = false := by decide +kernel
theorem witness_refusal_channels : LegalSnapshot true snapshotP0 ∧ (3 : Nat) ≠ 1 ∧ (3 : Nat) ≠ 2 :=
  ⟨legal_P0 _, by decide⟩
theorem witness_refusal_eventEmpty : ∃ e ∈ record [], e.bytes = [] := by decide
theorem witness_refusal_eventRange : (∀ e ∈ record [0xF8], e.bytes ≠ []) ∧ ∃ e ∈ record [0xF8], 0 ≤ e.offset := by decide
/-- Two events out of order. -/
def disordered : List Event := [{ offset := 1, bytes := [0xF8] }, { offset := 0, bytes := [0xF8] }]
theorem witness_refusal_eventOrder : (∀ e ∈ disordered, e.bytes ≠ []) ∧ (∀ e ∈ disordered, e.offset < 2) ∧
    ¬ disordered.Pairwise (fun a b => a.offset ≤ b.offset) := by decide

/-- An operation that may halt completes. -/
def completes {α : Type} : Except Halt α → Bool
  | .ok _ => true
  | .error _ => false

theorem exists_of_completes {α : Type} {x : Except Halt α} (h : completes x = true) : ∃ a, x = .ok a := by
  match x, h with
  | .ok a, _ => exact ⟨a, rfl⟩

/-- An outcome is a next state. -/
def goesOn (r : Result) : Bool := (observe (fun _ => ()) r).isSome

theorem exists_of_goesOn {r : Result} (h : goesOn r = true) : ∃ t, r = .next t := by
  match r, h with
  | .next t, _ => exact ⟨t, rfl⟩

theorem witness_frame_inactive : (∃ t, frame [] 2 ready = .ok t) ∧ voiceIsActive (getVoice ready.voices 3) = false :=
  ⟨exists_of_completes (by decide +kernel), by decide +kernel⟩
theorem witness_frame_between_ticks : (∃ t, frame [] 1 { ready with lfoStep := 2 } = .ok t) ∧
    1 < ({ ready with lfoStep := 2 } : State).lfoStep :=
  ⟨exists_of_completes (by decide +kernel), by decide⟩
/-- A frame with an active voice, on a tick. -/
theorem witness_frame_on_tick : (withNotes ready 60 0).lfoStep ≤ 1 ∧
    voiceIsActive (withNotes ready 60 0).voices.v0 = true := by decide +kernel
theorem witness_frame_active : ∃ t, frame [] 2 (withNotes ready 60 0) = .ok t :=
  exists_of_completes (by decide +kernel)
theorem witness_silentFrame : registersSet ready = true ∧ (∀ i, voiceIsActive (getVoice ready.voices i) = false) ∧
    fisFinite ready.snapshot.outputLevel = true ∧ fsign ready.snapshot.outputLevel = false := by decide +kernel
theorem witness_lfoNeutral : feq ready.modWheel f0 = true ∧ feq ready.snapshot.vibrato f0 = true ∧
    feq ready.snapshot.pwmDepth f0 = true ∧ fisFinite (lfoShape [1] 0 (lfoAdvance [0] ready)) = true ∧
    fisFinite (lfoShape [1] 3 (lfoAdvance [0] ready)) = true := by decide +kernel
theorem witness_prologue : registersSet (withNotes ready 60 0) = true ∧
    (∀ i, voiceIsActive (getVoice (withNotes ready 60 0).voices i) = true →
      (getVoice (withNotes ready 60 0).voices i).written.period = true) ∧
    voiceIsActive (getVoice (withNotes ready 60 0).voices 0) = true := by decide +kernel
theorem witness_tick : (∃ t, lfoTick [] (withNotes ready 60 0) = .ok t) ∧
    voiceIsActive (getVoice (withNotes ready 60 0).voices 0) = true ∧
    voiceIsActive (getVoice (withNotes ready 60 0).voices 1) = false :=
  ⟨exists_of_completes (by decide +kernel), by decide +kernel, by decide +kernel⟩
theorem witness_resetFilter : fisFinite fHalf = true ∧ filterSet Filter.initial = true := by decide
/-- An oscillator inside a cycle: its phase advances past pi/4. -/
def midCycle : Oscillator :=
  { Oscillator.initial with phase := f1, inc := f1, phaseMax := f100, phaseMaxSet := true }
theorem witness_oscNext_midCycle : midCycle.cycleSet = true ∧ midCycle.phaseMaxSet = true ∧
    fle (fadd [] midCycle.phase midCycle.inc) fPiOver4 = false ∧
    ∃ x, oscNext [] midCycle = .ok x :=
  ⟨by decide, by decide, by decide +kernel, exists_of_completes (by decide +kernel)⟩
/-- A cycle start of an oscillator with a rising phase, and the reflection of one past `phaseMax`. -/
theorem witness_oscNext_branches :
    fle (fadd [] f0 f0) fPiOver4 = true ∧ flt { midCycle with phaseMax := f1 }.phaseMax (fadd [] f1 f1) = true := by
  decide +kernel
theorem witness_squareWave : midCycle.cycleSet = true ∧ flt 0x00000000#32 midCycle.inc = true ∧
    (∃ u, oscSquareWave [] Oscillator.initial midCycle f100 = .ok u) ∧
    flt (fneg midCycle.inc) 0x00000000#32 = true ∧
    ∃ u, oscSquareWave [] Oscillator.initial { midCycle with inc := fNeg1 } f100 = .ok u :=
  ⟨by decide, by decide, exists_of_completes (by decide +kernel), by decide,
    exists_of_completes (by decide +kernel)⟩
/-- 40 R138's example: another oscillator just reset, and a period of 100.0. -/
theorem test_squareWave : okOf (fun u => (u.inc, u.phase == u.phaseMax, u.phase))
    (oscSquareWave [] Oscillator.initial Oscillator.initial f100) = some (fPi, true, 0x4319F024#32) := by decide +kernel
/-- 40 R136's example: the first call of a reset oscillator, period 100.0. -/
theorem test_oscNext : okOf (fun r => (r.1, r.2.phase, r.2.inc, r.2.phaseMax, r.2.dc))
    (oscNext [] { Oscillator.initial with period := f100 }) =
      some (0x3F7D6A05#32, 0x80000000#32, 0x40470D23#32, 0x431B8243#32, 0x3C257EB5#32) := by decide +kernel
theorem witness_envSet : envSet halfEnv = true ∧ halfEnv.levelSet = true := by decide

/-- 10 R60: a core just constructed, with a snapshot. -/
def unsetCore : State := { State.construction with snapshot := snapshotP0 }
theorem witness_unsetRead : Oscillator.constructed.cycleSet = false ∧ unsetCore.written.noiseSeed = false ∧
    unsetCore.written.lfoStep = false ∧ releasedNote (.noteOff 0 60 0) = some 60 ∧
    (getVoice unsetCore.voices 3).written.note = false ∧ unsetCore.snapshot.numVoices ≠ 1 ∧
    (getVoice unsetCore.voices 0).env.levelSet = false := by decide
theorem witness_unsetRead_mono : { unsetCore.snapshot with numVoices := 1 }.numVoices = 1 ∧
    unsetCore.voices.v0.written.note = false := by decide
/-- Each register that a frame reads and that may be UNSET: the seed, the countdown, an oscillator's phase. -/
theorem witness_unsetInFrame : UnsetInFrame { ready with written := { ready.written with noiseSeed := false } } ∧
    UnsetInFrame { ready with written := { ready.written with lfoStep := false } } ∧
    UnsetInFrame { ready with voices := setVoice ready.voices 0 { sounding 60 with osc1 := Oscillator.constructed } } ∧
    UnsetInFrame { ready with voices := setVoice ready.voices 7 { sounding 60 with osc2 := Oscillator.constructed } } :=
  ⟨.inl rfl, .inr (.inl rfl), .inr (.inr ⟨0, by decide +kernel, .inl rfl⟩),
    .inr (.inr ⟨7, by decide +kernel, .inr rfl⟩)⟩
/-- A frame due with an UNSET phase: the step faults, and keeps nothing (60 R352; log 12). -/
def unsetFrame : State :=
  { inBlock [] with voices := setVoice ready.voices 0 { sounding 60 with osc1 := Oscillator.constructed } }
theorem witness_unsetRead_frame : unsetFrame.fault = none ∧ unsetFrame.block = some (startBlock [] 1 2) ∧
    SegmentStopsAt (startBlock [] 1 2) 1 ∧ (startBlock [] 1 2).cursor < 1 ∧ UnsetInFrame unsetFrame ∧
    observe (fun t => (t.fault, t.noiseSeed, t.block)) (step unsetFrame) =
      some (some .unsetRead, 22222, some (startBlock [] 1 2)) :=
  ⟨rfl, rfl, .inr ⟨rfl, rfl⟩, by decide, .inr (.inr ⟨0, by decide +kernel, .inl rfl⟩), by decide +kernel⟩
/-- 60 R352: the three reads of an UNSET register that the rules name (40 R132, R136) and a note-on's. -/
theorem test_unsetRead : okOf (·.1) (oscNext [] Oscillator.constructed) = none ∧
    okOf (·.noiseSeed) (frame [] 2 { ready with written := { ready.written with noiseSeed := false } }) = none ∧
    observe (·.fault) (exec (.noteOn 0 60 100) unsetCore) = some (some .unsetRead) := by decide +kernel
theorem witness_release : envSet (envRelease halfEnv) = true ∧
    (envRelease halfEnv).target = 0x00000000#32 ∧ fle f0 halfEnv.releaseMultiplier = true ∧
    flt halfEnv.releaseMultiplier f1 = true ∧ fisFinite fHalf = true ∧ fle f0 fHalf = true := by decide

/-- A block in progress whose machine is in order, at its event, at its frame, and just accepted. -/
theorem witness_block : (inBlock (record [0x90, 0x00, 0x64])).fault = none ∧
    (inBlock (record [0x90, 0x00, 0x64])).block = some (startBlock (record [0x90, 0x00, 0x64]) 1 2) ∧
    schedulerOk (inBlock (record [0x90, 0x00, 0x64])) = true ∧
    unsetSafe (inBlock (record [0x90, 0x00, 0x64])) = true ∧
    notesOk (inBlock (record [0x90, 0x00, 0x64])) = true ∧ countdownOk (inBlock (record [0x90, 0x00, 0x64])) = true ∧
    0 < unitsLeft (startBlock (record [0x90, 0x00, 0x64]) 1 2) := by decide +kernel
theorem witness_block_goes_on : ∃ t, step (inBlock (record [0x90, 0x00, 0x64])) = .next t :=
  exists_of_goesOn (by decide +kernel)
theorem witness_block_keeps_fault_none :
    observe (·.fault) (step (inBlock (record [0x90, 0x00, 0x64]))) = some none := by decide +kernel
theorem witness_frame_step_goes_on : ∃ t, step (inBlock []) = .next t := exists_of_goesOn (by decide +kernel)
/-- A machine that is not READY, and one between two blocks (70 R384). -/
theorem witness_unsetSafe : unsetSafe State.construction = true ∧ unsetSafe ready = true ∧
    registersSet State.construction = false := by decide +kernel
theorem witness_applyEvent : ∃ t, applyEvent [0xE0, 0x00, 0x40] ready = .next t := ⟨_, rfl⟩
theorem witness_programChange : decode [0xC0, 0x05] = .ok (.programChange 0 5 0) ∧
    ∃ t, step (inBlock (record [0xC0, 0x05])) = .next t := ⟨by decide, ⟨_, rfl⟩⟩
theorem witness_boot : (0 : Int) ≤ 512 := by decide

end Sys2Proof.Tests
end

section
/-!
SUPPORT. What one step can do, said once as two inductive predicates: the effect of a host command and the effect of a
step, with the guard of each case. A statement about every step is proved by cases on them.
-/

namespace Sys2Proof.Machine

/-- What a host command given to `s` leaves, with its guard (47 R320, R325, R330 to R332; 60 R352, R353). -/
inductive CommandEffect (s : State) : HostCommand → State → Prop
  | allocated (rate : Number) (bs : Int) (hl : allocArgsLegal (fofNumber (stepKey s) rate) bs = true) :
      CommandEffect s (.allocate rate bs) (complete (allocateOp (fofNumber (stepKey s) rate) bs s))
  | allocateRefused (rate : Number) (bs : Int) (hl : allocArgsLegal (fofNumber (stepKey s) rate) bs = false) :
      CommandEffect s (.allocate rate bs) (refuse .allocArgs s)
  | deallocated : CommandEffect s .deallocate (complete { s with lifecycle := .unallocated })
  | reset : CommandEffect s .reset (complete (resetOp (stepKey s) s))
  | accepted (p : Snapshot) (es : List Event) (n c : Nat) (hr : s.lifecycle = .ready)
      (hl : blockRefusal s.params.filterPresent p es n c = none) :
      CommandEffect s (.processBlock p es n c) (acceptBlock p es n c s)
  | blockRefused (p : Snapshot) (es : List Event) (n c : Nat) (reason : RefuseReason) (hr : s.lifecycle = .ready)
      (hl : blockRefusal s.params.filterPresent p es n c = some reason) :
      CommandEffect s (.processBlock p es n c) (refuse reason s)
  | notReady (p : Snapshot) (es : List Event) (n c : Nat) (hr : s.lifecycle ≠ .ready) :
      CommandEffect s (.processBlock p es n c) (enterFault .notReady s)

/-- A command that has a next state was given to a machine without a fault, and had one of the effects (47). -/
theorem execCommand_next {c : HostCommand} {s t : State} (h : exec (commandInstr c) s = .next t) :
    s.fault = none ∧ CommandEffect s c t := by
  cases c with
  | allocate rate bs =>
    obtain ⟨hf, h⟩ := unlessStuck_next (h : execAllocate rate bs s = _)
    refine ⟨hf, ?_⟩
    dsimp only at h
    split at h
    · cases h; exact .allocated rate bs ‹_›
    · cases h; exact .allocateRefused rate bs (Bool.eq_false_iff.2 ‹_›)
  | deallocate =>
    obtain ⟨hf, h⟩ := unlessStuck_next (h : execDeallocate s = _)
    cases h
    exact ⟨hf, .deallocated⟩
  | reset =>
    obtain ⟨hf, h⟩ := unlessStuck_next (h : execReset s = _)
    cases h
    exact ⟨hf, .reset⟩
  | processBlock p es n c =>
    obtain ⟨hf, h⟩ := unlessStuck_next (h : execProcessBlock p es n c s = _)
    refine ⟨hf, ?_⟩
    split at h
    · split at h
      · cases h; exact .blockRefused p es n c _ ‹_› ‹_›
      · cases h; exact .accepted p es n c ‹_› ‹_›
    · cases h; exact .notReady p es n c ‹_›

/-- What a step of `s` leaves, with its guard: a frame, an event or the end of the block in progress, or between blocks a
host command or nothing (47 R320; log 27). A frame that reads an UNSET register enters the fault state (60 R352). -/
inductive StepEffect (s : State) : State → Prop
  | frame (b : Block) (u : State) (hb : s.block = some b) (hc : b.cursor < segmentEnd b)
      (hu : segmentFrame (stepKey s) b s = .ok u) : StepEffect s (afterFrame u)
  | frameFault (b : Block) (hb : s.block = some b) (hc : b.cursor < segmentEnd b) :
      StepEffect s (enterFault .unsetRead s)
  | event (b : Block) (e : Event) (t : State) (hb : s.block = some b) (he : nextEvent b = some e)
      (hc : e.offset ≤ b.cursor) (ht : applyEvent e.bytes s = .next t) : StepEffect s t
  | blockEnd (b : Block) (hb : s.block = some b) (he : nextEvent b = none) (hc : b.frames ≤ b.cursor) :
      StepEffect s (endBlock s)
  | idle (hb : s.block = none) (hc : s.commands = []) : StepEffect s s
  | command (c : HostCommand) (rest : List HostCommand) (u : State) (hb : s.block = none)
      (hc : s.commands = c :: rest) (hu : CommandEffect { s with commands := rest } c u) : StepEffect s (nextDraw u)

/-- With an event left, the segment in progress ends at its offset (47 R320). -/
theorem segmentEnd_of_some {b : Block} {e : Event} (he : nextEvent b = some e) : segmentEnd b = e.offset := by
  simp only [segmentEnd, he]

/-- With no event left, the segment in progress ends with the block (47 R320). -/
theorem segmentEnd_of_none {b : Block} (he : nextEvent b = none) : segmentEnd b = b.frames := by
  simp only [segmentEnd, he]

/-- A step of a block with an event left (47 R320). -/
theorem blockStep_of_some {b : Block} {e : Event} {s : State} (he : nextEvent b = some e) :
    blockStep b s = if b.cursor < e.offset then frameStep b s else applyEvent e.bytes s := by
  simp only [blockStep, he]

/-- A step of a block with no event left (47 R320). -/
theorem blockStep_of_none {b : Block} {s : State} (he : nextEvent b = none) :
    blockStep b s = if b.cursor < b.frames then frameStep b s else .next (endBlock s) := by
  simp only [blockStep, he]

/-- The frame at the cursor is rendered as long as the segment in progress has one (47 R320, R322). -/
theorem blockStep_of_cursor_lt {b : Block} {s : State} (h : b.cursor < segmentEnd b) :
    blockStep b s = frameStep b s := by
  cases he : nextEvent b with
  | some e =>
    rw [segmentEnd_of_some he] at h
    rw [blockStep_of_some he, if_pos h]
  | none =>
    rw [segmentEnd_of_none he] at h
    rw [blockStep_of_none he, if_pos h]

/-- A frame step has the effect of a frame, or of its fault. -/
theorem frameStep_effect {b : Block} {s t : State} (hb : s.block = some b) (hc : b.cursor < segmentEnd b)
    (h : frameStep b s = .next t) : StepEffect s t := by
  rcases frameStep_next h with ⟨u, hu, rfl⟩ | rfl
  · exact .frame b u hb hc hu
  · exact .frameFault b hb hc

/-- A step of a block renders the frame at the cursor, applies the event that is due, or ends the block (47 R320). -/
theorem blockStep_effect {b : Block} {s t : State} (hb : s.block = some b) (h : blockStep b s = .next t) :
    StepEffect s t := by
  by_cases hc : b.cursor < segmentEnd b
  · rw [blockStep_of_cursor_lt hc] at h
    exact frameStep_effect hb hc h
  · cases he : nextEvent b with
    | some e =>
      rw [segmentEnd_of_some he] at hc
      rw [blockStep_of_some he, if_neg hc] at h
      exact .event b e t hb he (Nat.le_of_not_lt hc) h
    | none =>
      rw [segmentEnd_of_none he] at hc
      rw [blockStep_of_none he, if_neg hc] at h
      cases h
      exact .blockEnd b hb he (Nat.le_of_not_lt hc)

/-- A step that has a next state was taken without a fault, and had one of the effects (47 R320; 60 R352). -/
theorem step_next {s t : State} (h : step s = .next t) : s.fault = none ∧ StepEffect s t := by
  unfold step at h
  split at h
  · cases h
  rename_i hf
  refine ⟨hf, ?_⟩
  unfold liveStep at h
  split at h
  · exact blockStep_effect ‹_› h
  · unfold commandStep at h
    split at h
    · cases h
      exact .idle ‹_› ‹_›
    · obtain ⟨u, hu, rfl⟩ := mapNext_next.1 h
      exact .command _ _ u ‹_› ‹_› (execCommand_next hu).2

end Sys2Proof.Machine
end

section
/-!
SUPPORT. The voices that the mono queue and the allocator read, and what rendering leaves alone of a voice and of the
set-bits (45_allocation.md R262, R267, R268; 46_render.md R291 to R296).
-/

namespace Sys2Proof.Machine

/-! ## The slots of the mono queue and the voices of the allocator -/

/-- A push reads the note of every voice below a slot (45 R267). -/
theorem notesSet_take_seven {vs : VoiceFile} :
    notesSet ((voiceList vs).take 7) = true ↔ ∀ j : Fin 7, (getVoice vs j.castSucc).written.note = true := by
  simp [notesSet, voiceList, getVoice, Fin.forall_fin_succ]

/-- A pop reads the note of every slot (45 R268). -/
theorem notesSet_tail {vs : VoiceFile} :
    notesSet (voiceList vs).tail = true ↔ ∀ j : Fin 7, (getVoice vs j.succ).written.note = true := by
  simp [notesSet, voiceList, getVoice, Fin.forall_fin_succ]

theorem getVoice_pushNotes_zero (fp : Bool) (vs : VoiceFile) : getVoice (pushNotes fp vs) 0 = getVoice vs 0 := rfl

/-- A push gives a slot the note of the voice below it, and releases it (45 R267). -/
theorem getVoice_pushNotes_succ (fp : Bool) (vs : VoiceFile) (j : Fin 7) :
    getVoice (pushNotes fp vs) j.succ =
      voiceRelease fp (writeNote (getVoice vs j.castSucc).note (getVoice vs j.succ)) := by
  fin_cases j <;> rfl

/-- The slots that a pop scans hold the voices 1 to 7 (45 R268). -/
theorem mem_indexedVoices_tail {vs : VoiceFile} {x : Fin 8 × Voice} :
    x ∈ (indexedVoices vs).tail ↔ ∃ j : Fin 7, x = (j.succ, getVoice vs j.succ) := by
  simp [indexedVoices, getVoice, Fin.exists_fin_succ]

theorem indexedVoices_eq_ofFn (vs : VoiceFile) : indexedVoices vs = List.ofFn fun i => (i, getVoice vs i) := rfl

/-- The allocator scans every voice below `numVoices` (45 R262). -/
theorem mem_scannedVoices {p : Snapshot} {vs : VoiceFile} {i : Fin 8} (h : (i.val : Int) < p.numVoices) :
    (i, getVoice vs i) ∈ scannedVoices p vs := by
  rw [scannedVoices, indexedVoices_eq_ofFn, List.mem_take_iff_getElem]
  exact ⟨i, by rw [List.length_ofFn]; omega, List.getElem_ofFn _⟩

/-- The popped slot is one of 1 to 7 and holds a note (45 R268). -/
theorem queuedSlot_some {vs : VoiceFile} {t : Fin 8} (h : queuedSlot vs = some t) :
    ∃ j : Fin 7, t = j.succ ∧ 0 < (getVoice vs t).note := by
  simp only [queuedSlot, Option.map_eq_some_iff] at h
  obtain ⟨x, hx, rfl⟩ := h
  have held := List.find?_some hx
  obtain ⟨j, rfl⟩ := mem_indexedVoices_tail.1 (List.mem_of_find?_eq_some hx)
  exact ⟨j, rfl, of_decide_eq_true held⟩

/-! ## What rendering keeps of a voice -/

/-- The note of a voice and its set-bit, which no part of rendering writes (46 R293). -/
structure SameNote (v u : Voice) : Prop where
  note    : u.note = v.note
  noteSet : u.written.note = v.written.note

theorem SameNote.refl (v : Voice) : SameNote v v := ⟨rfl, rfl⟩

theorem SameNote.trans {v u w : Voice} (h : SameNote v u) (h' : SameNote u w) : SameNote v w :=
  ⟨h'.note.trans h.note, h'.noteSet.trans h.noteSet⟩

/-- What the mix of a frame reads first of a voice, and the prologue and the LFO tick leave alone: the amplitude envelope
and the bits that say the oscillators' phases hold values (46 R291, R293, R294). -/
structure SameForMix (v u : Voice) : Prop extends SameNote v u where
  env     : u.env = v.env
  osc1Set : u.osc1.cycleSet = v.osc1.cycleSet
  osc2Set : u.osc2.cycleSet = v.osc2.cycleSet

theorem SameForMix.refl (v : Voice) : SameForMix v v := ⟨SameNote.refl v, rfl, rfl, rfl⟩

theorem SameForMix.trans {v u w : Voice} (h : SameForMix v u) (h' : SameForMix u w) : SameForMix v w :=
  ⟨h.toSameNote.trans h'.toSameNote, h'.env.trans h.env, h'.osc1Set.trans h.osc1Set, h'.osc2Set.trans h.osc2Set⟩

theorem SameForMix.isActive {v u : Voice} (h : SameForMix v u) : voiceIsActive u = voiceIsActive v := by
  simp only [voiceIsActive, h.env]

theorem updatePeriod_sameForMix {s : State} {k : Key} {v u : Voice} (h : updatePeriod s k v = .ok u) :
    SameForMix v u := by
  obtain ⟨-, -, rfl⟩ := updatePeriod_ok.1 h
  exact ⟨⟨rfl, rfl⟩, rfl, rfl, rfl⟩

theorem copySegmentRegisters_sameForMix (s : State) (v : Voice) : SameForMix v (copySegmentRegisters s v) := by
  unfold copySegmentRegisters
  dsimp only
  split <;> exact ⟨⟨rfl, rfl⟩, rfl, rfl, rfl⟩

theorem prologueVoice_sameForMix {s : State} {k : Key} {v u : Voice} (h : prologueVoice s k v = .ok u) :
    SameForMix v u := by
  obtain ⟨-, h⟩ := prologueVoice_ok.1 h
  split at h
  · obtain ⟨w, hw, rfl⟩ := h
    exact (updatePeriod_sameForMix hw).trans (copySegmentRegisters_sameForMix s w)
  · subst h; exact .refl u

theorem voiceUpdateLfo_sameForMix {fp : Bool} {k : Key} {v u : Voice} (h : voiceUpdateLfo fp k v = .ok u) :
    SameForMix v u := by
  obtain ⟨-, -, -, -, -, w, rfl, h⟩ := voiceUpdateLfo_ok h
  split at h
  · obtain ⟨fenv, -, -, -, -, -, -, -, hu⟩ := voiceUpdateFilter_ok h
    rw [hu]
    exact ⟨⟨rfl, rfl⟩, rfl, rfl, rfl⟩
  · subst h; exact ⟨⟨rfl, rfl⟩, rfl, rfl, rfl⟩

theorem tickVoice_sameForMix {s : State} {k : Key} {v u : Voice} (h : tickVoice s k v = .ok u) :
    SameForMix v u := by
  obtain ⟨-, h⟩ := tickVoice_ok h
  split at h
  · obtain ⟨_, w, rfl, hw, hu⟩ := h
    refine .trans ?_ ((voiceUpdateLfo_sameForMix hw).trans (updatePeriod_sameForMix hu))
    split <;> exact ⟨⟨rfl, rfl⟩, rfl, rfl, rfl⟩
  · subst h; exact .refl u

theorem prologue_sameForMix {k : Key} {s t : State} (h : prologue k s = .ok t) (i : Fin 8) :
    SameForMix (getVoice s.voices i) (getVoice t.voices i) := by
  obtain ⟨vs, hvs, rfl⟩ := prologue_ok h
  exact prologueVoice_sameForMix (hvs i)

theorem openSegment_sameForMix {k : Key} {b : Block} {s t : State} (h : openSegment k b s = .ok t) (i : Fin 8) :
    SameForMix (getVoice s.voices i) (getVoice t.voices i) := by
  rcases openSegment_ok h with ⟨-, h⟩ | ⟨-, rfl⟩
  · exact prologue_sameForMix h i
  · exact .refl _

theorem lfoStepOp_sameForMix {k : Key} {s t : State} (h : lfoStepOp k s = .ok t) (i : Fin 8) :
    SameForMix (getVoice s.voices i) (getVoice t.voices i) := by
  rcases (lfoStepOp_ok h).2 with ⟨-, rfl⟩ | ⟨-, h⟩
  · exact .refl _
  · obtain ⟨-, vs, hvs, rfl⟩ := lfoTick_ok h
    exact tickVoice_sameForMix (hvs i)

theorem mixVoice_sameNote {s : State} {x : F32} {k : Key} {lr mix : F32 × F32} {v u : Voice}
    (h : mixVoice s x k lr v = .ok (mix, u)) : SameNote v u := by
  obtain ⟨-, h⟩ := mixVoice_ok h
  split at h
  · obtain ⟨o, hr, -, -⟩ := h
    obtain ⟨_, _, _, _, -, -, -, -, -, -, -, hu⟩ := voiceRender_ok hr
    rw [hu]
    exact ⟨rfl, rfl⟩
  · obtain ⟨-, rfl⟩ := h
    exact .refl u

theorem frame_sameNote {k : Key} {c : Nat} {s t : State} (h : frame k c s = .ok t) (i : Fin 8) :
    SameNote (getVoice s.voices i) (getVoice t.voices i) := by
  obtain ⟨u, x, lr, vs, hu, -, hf, rfl⟩ := frame_ok h
  obtain ⟨_, _, hm⟩ := foldVoices_ok hf i
  exact (lfoStepOp_sameForMix hu i).toSameNote.trans (mixVoice_sameNote hm)

theorem epilogueVoice_sameNote (fp : Bool) (v : Voice) : SameNote v (epilogueVoice fp v) := by
  unfold epilogueVoice
  split
  · exact .refl v
  · split <;> exact ⟨rfl, rfl⟩

/-- A frame step of a segment, with its prologue and epilogue, writes no note (46 R291, R293, R296). -/
theorem segmentFrame_sameNote {k : Key} {b : Block} {s t : State} (h : segmentFrame k b s = .ok t) (i : Fin 8) :
    SameNote (getVoice s.voices i) (getVoice t.voices i) := by
  obtain ⟨s1, s2, hopen, hframe, hclose⟩ := segmentFrame_ok h
  refine ((openSegment_sameForMix hopen i).toSameNote.trans (frame_sameNote hframe i)).trans ?_
  rcases closeSegment_ok hclose with ⟨-, rfl⟩ | ⟨-, rfl⟩
  · rw [closeVoices_voices, getVoice_mapVoices]
    exact epilogueVoice_sameNote _ _
  · exact .refl _

/-! ## What rendering keeps of the engine's set-bits -/

/-- The set-bits of the engine registers that an LFO tick does not write (46 R294). -/
structure SameOutsideTick (w w' : EngineWritten) : Prop where
  noiseSeed           : w'.noiseSeed = w.noiseSeed
  pitchBend           : w'.pitchBend = w.pitchBend
  sustainPedalPressed : w'.sustainPedalPressed = w.sustainPedalPressed
  modWheel            : w'.modWheel = w.modWheel
  lastNote            : w'.lastNote = w.lastNote

theorem lfoStepOp_sameOutsideTick {k : Key} {s t : State} (h : lfoStepOp k s = .ok t) :
    SameOutsideTick s.written t.written := by
  rcases (lfoStepOp_ok h).2 with ⟨-, rfl⟩ | ⟨-, h⟩
  · constructor <;> rfl
  · obtain ⟨-, vs, -, rfl⟩ := lfoTick_ok h
    constructor <;> rfl

/-- Opening a segment writes voices, nothing else (46 R291). -/
theorem openSegment_eq {k : Key} {b : Block} {s t : State} (h : openSegment k b s = .ok t) :
    ∃ vs, t = { s with voices := vs } := by
  rcases openSegment_ok h with ⟨-, h⟩ | ⟨-, rfl⟩
  · obtain ⟨vs, -, rfl⟩ := prologue_ok h
    exact ⟨vs, rfl⟩
  · exact ⟨t.voices, rfl⟩

theorem segmentFrame_sameOutsideTick {k : Key} {b : Block} {s t : State} (h : segmentFrame k b s = .ok t) :
    SameOutsideTick s.written t.written := by
  obtain ⟨s1, s2, hopen, hframe, hclose⟩ := segmentFrame_ok h
  obtain ⟨ws, rfl⟩ := openSegment_eq hopen
  obtain ⟨u, x, lr, vs, hu, -, -, rfl⟩ := frame_ok hframe
  have same := lfoStepOp_sameOutsideTick hu
  rcases closeSegment_ok hclose with ⟨-, rfl⟩ | ⟨-, rfl⟩ <;> exact same

end Sys2Proof.Machine
end

section
/-!
SUPPORT. Where a read of an UNSET register stops an operation: a frame with its prologue, a note-off and a note-on
(60_exceptions.md R352). An operation that cannot hang is stopped by every read that its completion needs.
-/

namespace Sys2Proof.Machine

open Sys2Proof.Claims

/-- An operation that neither completes nor hangs reads an UNSET register. -/
theorem eq_unset {α : Type} {r : Except Halt α} (hok : ∀ a, r ≠ .ok a) (hh : r ≠ .error .hang) :
    r = .error .unset := by
  match r, hok, hh with
  | .ok a, hok, _ => exact absurd rfl (hok a)
  | .error .unset, _, _ => rfl
  | .error .hang, _, hh => exact absurd rfl hh

/-- A rule stops where it reads registers that do not all hold values. -/
theorem need_bind_unset {α : Type} {b : Bool} {f : Unit → Except Halt α} (h : b ≠ true) :
    (need b >>= f) = .error .unset := by
  cases b with
  | false => rfl
  | true => exact absurd rfl h

/-! ## Rendering -/

/-- An oscillator without a phase has no next sample (40 R136). -/
theorem oscNext_unset (k : Key) {o : Oscillator} (h : o.cycleSet = false) : oscNext k o = .error .unset := by
  simp [oscNext, h]

/-- A frame that completes read the noise seed, the countdown and the phases of the active voices, so they held values
(40 R132, R136; 46 R293, R294). -/
theorem not_unsetInFrame_of_frame_ok {k : Key} {c : Nat} {s t : State} (h : frame k c s = .ok t) :
    ¬ UnsetInFrame s := by
  obtain ⟨u, x, lr, vs, hu, hx, hf, -⟩ := frame_ok h
  have hstep := (lfoStepOp_ok hu).1
  have hseed : s.written.noiseSeed = true :=
    (lfoStepOp_sameOutsideTick hu).noiseSeed.symm.trans (frameNoise_ok.1 hx).1
  rintro (hn | hl | ⟨i, hactive, hosc⟩)
  · simp [hseed] at hn
  · simp [hstep] at hl
  · have same := lfoStepOp_sameForMix hu i
    obtain ⟨_, _, hm⟩ := foldVoices_ok hf i
    obtain ⟨-, hv⟩ := mixVoice_ok hm
    rw [same.isActive, if_pos hactive] at hv
    obtain ⟨o, hr, -, -⟩ := hv
    obtain ⟨_, _, _, _, h1, h2, -⟩ := voiceRender_ok hr
    have set1 := (oscNext_ok.1 h1).1
    have set2 := (oscNext_ok.1 h2).1
    rw [same.osc1Set] at set1
    rw [same.osc2Set] at set2
    rcases hosc with hosc | hosc
    · simp [set1] at hosc
    · simp [set2] at hosc

theorem frame_unset {k : Key} {c : Nat} {s : State} (h : UnsetInFrame s) : frame k c s = .error .unset :=
  eq_unset (fun _ hok => not_unsetInFrame_of_frame_ok hok h) (frame_ne_hang k c s)

/-- The prologue sets none of the registers in question, so the frame after it reads the same UNSET one (46 R291). -/
theorem openSegment_unsetInFrame {k : Key} {b : Block} {s t : State} (h : UnsetInFrame s)
    (ht : openSegment k b s = .ok t) : UnsetInFrame t := by
  have same := openSegment_sameForMix ht
  obtain ⟨vs, rfl⟩ := openSegment_eq ht
  refine h.imp_right (.imp_right ?_)
  rintro ⟨i, hactive, hosc⟩
  exact ⟨i, by rwa [(same i).isActive], by rwa [(same i).osc1Set, (same i).osc2Set]⟩

theorem segmentFrame_unset {k : Key} {b : Block} {s : State} (h : UnsetInFrame s) :
    segmentFrame k b s = .error .unset := by
  refine eq_unset (fun t hok => ?_) (segmentFrame_ne_hang k b s)
  obtain ⟨s1, s2, hopen, hframe, -⟩ := segmentFrame_ok hok
  exact not_unsetInFrame_of_frame_ok hframe (openSegment_unsetInFrame h hopen)

/-- A segment stops where the model's scheduler says it ends (47 R320, R322). -/
theorem segmentEnd_of_stopsAt {b : Block} {stop : Nat} (h : SegmentStopsAt b stop) : segmentEnd b = stop := by
  rcases h with ⟨e, he, rfl⟩ | ⟨he, rfl⟩ <;> simp [segmentEnd, nextEvent, he]

theorem step_of_unsetInFrame {s : State} {b : Block} (hf : s.fault = none) (hb : s.block = some b)
    (hc : b.cursor < segmentEnd b) (hu : UnsetInFrame s) : step s = .next (enterFault .unsetRead s) := by
  have hstep : step s = blockStep b s := by simp [step, liveStep, hf, hb]
  rw [hstep, blockStep_of_cursor_lt hc, frameStep, segmentFrame_unset hu]
  rfl

/-! ## Note events -/

/-- The release scan reads every note (44 R234). -/
theorem releaseScan_unset {n : Int} {s : State} {j : Fin 8} (h : (getVoice s.voices j).written.note = false) :
    releaseScan n s = .error .unset :=
  need_bind_unset fun hs => by simp [notesSet_iff.1 hs j] at h

/-- The pop reads the notes of slots 1 to 7 (45 R268). -/
theorem popQueue_unset {k : Key} {s : State} {j : Fin 7} (h : (getVoice s.voices j.succ).written.note = false) :
    popQueue k s = .error .unset := by
  have hq : nextQueuedNote s.voices = .error .unset := need_bind_unset fun hs => by simp [notesSet_tail.1 hs j] at h
  rw [popQueue, hq]
  rfl

/-- A note-off reads the notes of all eight voices: before the retune, which may hang, those that the pop reads, and in
the scan the rest (44 R234). -/
theorem noteOffOp_unset {k : Key} {n : Int} {s : State} {j : Fin 8}
    (h : (getVoice s.voices j).written.note = false) : noteOffOp k n s = .error .unset := by
  unfold noteOffOp popIfSounding
  split
  · by_cases h0 : s.voices.v0.written.note = true
    · obtain ⟨i, rfl⟩ : ∃ i : Fin 7, j = i.succ :=
        Fin.eq_succ_of_ne_zero (by rintro rfl; simp [getVoice, h0] at h)
      rw [h0, need_true, ok_bind]
      split
      · rw [popQueue_unset h]; rfl
      · exact releaseScan_unset h
    · rw [need_bind_unset h0]; rfl
  · exact releaseScan_unset h

theorem sustainOp_unset {k : Key} {val : BitVec 7} {s : State} {j : Fin 8} (hv : pedalPressed val = false)
    (h : (getVoice s.voices j).written.note = false) : sustainOp k val s = .error .unset := by
  simpa [sustainOp, hv] using noteOffOp_unset (s := writePedal false s) h

/-- In mono mode a note-on reads the note of voice 0 (44 R232). -/
theorem noteOnOp_unset_mono {k : Key} {n vel : Int} {s : State} (hm : isMono s.snapshot = true)
    (h : s.voices.v0.written.note = false) : noteOnOp k n vel s = .error .unset := by
  simp [noteOnOp, hm, h]

/-- In poly mode a note-on reads the level of every voice below `numVoices` (44 R232; 45 R262). -/
theorem noteOnOp_unset_poly {k : Key} {n vel : Int} {s : State} {j : Fin 8} (hm : isMono s.snapshot = false)
    (hj : (j.val : Int) < s.snapshot.numVoices) (h : (getVoice s.voices j).env.levelSet = false) :
    noteOnOp k n vel s = .error .unset := by
  have hfind : findFreeVoice s.snapshot s.voices = .error .unset := by
    refine need_bind_unset fun hs => ?_
    have := List.all_eq_true.1 hs _ (mem_scannedVoices hj)
    simp [h] at this
  simp [noteOnOp, hm, hfind]

/-- An event that releases a note reads the notes of all eight voices (44 R233, R234, R240). -/
theorem exec_releasedNote_unset {i : Instr} {n : Int} {s : State} {j : Fin 8} (hi : releasedNote i = some n)
    (h : (getVoice s.voices j).written.note = false) : exec i s = .next (enterFault .unsetRead s) := by
  cases i <;> simp only [releasedNote, reduceCtorEq] at hi
  case noteOff _ m _ => exact congrArg (finish s) (noteOffOp_unset h)
  case noteOnV0 _ m => exact congrArg (finish s) (noteOffOp_unset h)
  case ccSustain _ val =>
    have hv : pedalPressed val = false := by
      have up : val.toNat < 64 := (Option.ite_none_right_eq_some.1 hi).1
      exact decide_eq_false (by unfold dataValue; omega)
    exact congrArg (finish s) (sustainOp_unset hv h)

end Sys2Proof.Machine
end

section
/-!
SUPPORT. The note invariant (10_state.md R31, R37), operation by operation. An UNSET note may stand beside any value, so a
note that is copied is legal because the operation read it: the push and the pop of the mono queue.
-/

namespace Sys2Proof.Machine

/-! ## Legal notes -/

theorem noteLegal_iff {v : Voice} :
    noteLegal v = true ↔ (v.written.note = true → -1 ≤ v.note ∧ v.note ≤ 127) := by
  cases h : v.written.note <;> simp [noteLegal, h]

theorem noteLegal_of_range {v : Voice} (h : -1 ≤ v.note) (h' : v.note ≤ 127) : noteLegal v = true :=
  noteLegal_iff.2 fun _ => ⟨h, h'⟩

theorem SameNote.noteLegal {v u : Voice} (h : SameNote v u) (hv : noteLegal v = true) : noteLegal u = true := by
  rw [noteLegal_iff] at hv ⊢
  rwa [h.note, h.noteSet]

theorem notesOk_iff {s : State} :
    notesOk s = true ↔
      (∀ i, noteLegal (getVoice s.voices i) = true) ∧
        (s.written.lastNote = true → 0 ≤ s.lastNote ∧ s.lastNote ≤ 127) := by
  rw [notesOk, Bool.and_eq_true, voiceList_all]
  cases s.written.lastNote <;> simp

/-- The invariant speaks of the voices, `lastNote` and its set-bit. -/
theorem notesOk_of_voices {s t : State} (hs : notesOk s = true) (hv : ∀ i, noteLegal (getVoice t.voices i) = true)
    (hl : t.lastNote = s.lastNote) (hw : t.written.lastNote = s.written.lastNote) : notesOk t = true :=
  notesOk_iff.2 ⟨hv, by rw [hl, hw]; exact (notesOk_iff.1 hs).2⟩

theorem dataValue_nonneg (d : BitVec 7) : 0 ≤ dataValue d := by unfold dataValue; omega

theorem dataValue_le (d : BitVec 7) : dataValue d ≤ 127 := by unfold dataValue; omega

/-! ## The operations of a note event -/

theorem startOscillators_note {k : Key} {p : Snapshot} {x : F32} {vel : Int} {v u : Voice}
    (h : startOscillators k p x vel v = .ok u) : u.note = v.note := by
  unfold startOscillators at h
  dsimp only at h
  split at h
  · obtain ⟨o, -, h⟩ := bind_ok.1 h
    cases pure_ok.1 h
    rfl
  · cases h
    rfl

theorem startEnvelopes_note {fp : Bool} {k : Key} {p : Snapshot} {v u : Voice}
    (h : startEnvelopes fp k p v = .ok u) : u.note = v.note := by
  obtain ⟨e, -, h⟩ := bind_ok.1 h
  split at h
  · obtain ⟨f, -, h⟩ := bind_ok.1 h
    cases pure_ok.1 h
    rfl
  · cases h
    rfl

/-- A started voice holds its note (45 R265). -/
theorem startedVoice_note {s : State} {k : Key} {p x : F32} {n vel : Int} {v u : Voice}
    (h : startedVoice s k p x n vel v = .ok u) : u.note = n := by
  obtain ⟨w, hw, h⟩ := bind_ok.1 h
  have hn := startOscillators_note hw
  have hu := startEnvelopes_note h
  split at hu <;> exact hu.trans hn

/-- A retuned voice holds its new note (45 R266). -/
theorem retunedVoice_note {s : State} {k : Key} {p : F32} {n vel : Int} {v u : Voice}
    (h : retunedVoice s k p n vel v = .ok u) : u.note = n := by
  obtain ⟨e, -, h⟩ := bind_ok.1 h
  dsimp only at h
  split at h <;>
  · obtain ⟨x, -, h⟩ := bind_ok.1 h
    cases pure_ok.1 h
    rfl

/-- Giving one voice a note, and `lastNote` the same, keeps the notes legal. -/
theorem notesOk_writeLastNote_setVoice {s : State} {i : Fin 8} {n : Int} {v : Voice} (hs : notesOk s = true)
    (h0 : 0 ≤ n) (h1 : n ≤ 127) (hv : v.note = n) :
    notesOk (writeLastNote n { s with voices := setVoice s.voices i v }) = true := by
  refine notesOk_iff.2 ⟨fun j => ?_, fun _ => ⟨h0, h1⟩⟩
  rw [writeLastNote_voices, getVoice_setVoice]
  split
  · exact noteLegal_of_range (by omega) (by omega)
  · exact (notesOk_iff.1 hs).1 j

theorem startVoice_notesOk {k : Key} {i : Fin 8} {n vel : Int} {s t : State} (hs : notesOk s = true) (h0 : 0 ≤ n)
    (h1 : n ≤ 127) (h : startVoice k i n vel s = .ok t) : notesOk t = true := by
  obtain ⟨p, v, -, hv, rfl⟩ := startVoice_ok h
  exact notesOk_writeLastNote_setVoice hs h0 h1 (startedVoice_note hv)

theorem restartMonoVoice_notesOk {k : Key} {n vel : Int} {s t : State} (hs : notesOk s = true) (h0 : 0 ≤ n)
    (h1 : n ≤ 127) (h : restartMonoVoice k n vel s = .ok t) : notesOk t = true := by
  obtain ⟨p, v, -, hv, rfl⟩ := restartMonoVoice_ok h
  exact notesOk_writeLastNote_setVoice hs h0 h1 (retunedVoice_note hv)

theorem voiceRelease_sameNote (fp : Bool) (v : Voice) : SameNote v (voiceRelease fp v) := by
  unfold voiceRelease
  split <;> exact ⟨rfl, rfl⟩

/-- A push copies notes that hold values, so they stay legal (45 R267). -/
theorem pushNotes_noteLegal {fp : Bool} {vs : VoiceFile} (hs : notesSet ((voiceList vs).take 7) = true)
    (hv : ∀ i, noteLegal (getVoice vs i) = true) (i : Fin 8) : noteLegal (getVoice (pushNotes fp vs) i) = true := by
  cases i using Fin.cases with
  | zero => rw [getVoice_pushNotes_zero]; exact hv 0
  | succ j =>
    obtain ⟨h0, h1⟩ := noteLegal_iff.1 (hv j.castSucc) (notesSet_take_seven.1 hs j)
    rw [getVoice_pushNotes_succ]
    exact (voiceRelease_sameNote _ _).noteLegal (noteLegal_of_range h0 h1)

/-- A pop of slots that hold values gives a legal note and frees its slot (45 R268). -/
theorem popNote_noteLegal {vs : VoiceFile} (hs : notesSet (voiceList vs).tail = true)
    (hv : ∀ i, noteLegal (getVoice vs i) = true) :
    (popNote vs).1 ≤ 127 ∧ ∀ i, noteLegal (getVoice (popNote vs).2 i) = true := by
  unfold popNote
  split
  · obtain ⟨j, rfl, -⟩ := queuedSlot_some ‹_›
    refine ⟨(noteLegal_iff.1 (hv j.succ) (notesSet_tail.1 hs j)).2, fun i => ?_⟩
    rw [getVoice_setVoice]
    split
    · exact noteLegal_of_range (v := writeNote 0 _) (by simp [writeNote]) (by simp [writeNote])
    · exact hv i
  · exact ⟨by simp, hv⟩

theorem noteOnOp_notesOk {k : Key} {n vel : Int} {s t : State} (hs : notesOk s = true) (h0 : 0 ≤ n) (h1 : n ≤ 127)
    (h : noteOnOp k n vel s = .ok t) : notesOk t = true := by
  unfold noteOnOp at h
  split at h
  · obtain ⟨-, h⟩ := need_bind_ok.1 h
    split at h
    · obtain ⟨vs, hvs, h⟩ := bind_ok.1 h
      obtain ⟨hset, rfl⟩ := shiftQueuedNotes_ok.1 hvs
      have hpush := pushNotes_noteLegal (fp := s.params.filterPresent) hset (notesOk_iff.1 hs).1
      refine restartMonoVoice_notesOk ?_ h0 h1 h
      exact notesOk_of_voices hs hpush rfl rfl
    · exact startVoice_notesOk hs h0 h1 h
  · obtain ⟨i, -, h⟩ := bind_ok.1 h
    exact startVoice_notesOk hs h0 h1 h

theorem popQueue_notesOk {k : Key} {s t : State} (hs : notesOk s = true) (h : popQueue k s = .ok t) :
    notesOk t = true := by
  obtain ⟨r, hr, -⟩ := bind_ok.1 h
  obtain ⟨hle, hv⟩ := popNote_noteLegal (nextQueuedNote_ok.1 hr).1 (notesOk_iff.1 hs).1
  have hpop := notesOk_of_voices (t := { s with voices := (popNote s.voices).2 }) hs hv rfl rfl
  rcases popQueue_cases h with ⟨hpos, h⟩ | ⟨-, rfl⟩
  · exact restartMonoVoice_notesOk hpop hpos.le hle h
  · exact hpop

/-- The scan leaves a voice alone, or makes it SUSTAINED or FREE (44 R234). -/
theorem releaseMatching_noteLegal {fp pedal : Bool} {n : Int} {v : Voice} (hv : noteLegal v = true) :
    noteLegal (releaseMatching fp pedal n v) = true := by
  unfold releaseMatching
  split
  · split <;> exact noteLegal_of_range (by simp [writeNote]) (by simp [writeNote])
  · exact hv

theorem noteOffOp_notesOk {k : Key} {n : Int} {s t : State} (hs : notesOk s = true)
    (h : noteOffOp k n s = .ok t) : notesOk t = true := by
  obtain ⟨u, hu, h⟩ := bind_ok.1 h
  have hpop : notesOk u = true := by
    rcases popIfSounding_cases hu with ⟨-, -, hq⟩ | ⟨-, rfl⟩
    · exact popQueue_notesOk hs hq
    · exact hs
  obtain ⟨-, -, rfl⟩ := releaseScan_ok.1 h
  refine notesOk_of_voices hpop (fun i => ?_) rfl rfl
  rw [releaseVoices_voices, getVoice_mapVoices]
  exact releaseMatching_noteLegal ((notesOk_iff.1 hpop).1 i)

theorem sustainOp_notesOk {k : Key} {val : BitVec 7} {s t : State} (hs : notesOk s = true)
    (h : sustainOp k val s = .ok t) : notesOk t = true := by
  unfold sustainOp at h
  dsimp only at h
  split at h
  · cases h
    exact hs
  · exact noteOffOp_notesOk (s := writePedal (pedalPressed val) s) hs h

/-- `VOICE.RESET` makes a voice FREE (43 R201). -/
theorem voiceReset_noteLegal (fp : Bool) (k : Key) (v : Voice) : noteLegal (voiceReset fp k v) = true := by
  have hn : (voiceReset fp k v).note = 0 := by
    unfold voiceReset
    dsimp only
    split <;> rfl
  exact noteLegal_of_range (by omega) (by omega)

theorem mapVoices_voiceReset_noteLegal (fp : Bool) (k : Key) (vs : VoiceFile) (i : Fin 8) :
    noteLegal (getVoice (mapVoices (fun i v => voiceReset fp (i.val :: k) v) vs) i) = true := by
  rw [getVoice_mapVoices]
  exact voiceReset_noteLegal _ _ _

theorem allNotesOffOp_notesOk {k : Key} {s : State} (hs : notesOk s = true) :
    notesOk (allNotesOffOp k s) = true :=
  notesOk_of_voices hs (mapVoices_voiceReset_noteLegal _ k s.voices) rfl rfl

/-! ## Every step -/

/-- An operation of an event keeps the invariant also when it enters the fault state instead (log 12). -/
theorem finish_notesOk {s t : State} {r : Except Halt State} (hs : notesOk s = true)
    (hr : r = .ok t → notesOk t = true) (h : finish s r = .next t) : notesOk t = true := by
  rcases finish_next h with h | ⟨-, rfl⟩
  · exact hr h
  · exact hs

theorem exec_event_notesOk {i : Instr} {s t : State} (hi : encodeCommand i = none) (hs : notesOk s = true)
    (h : exec i s = .next t) : notesOk t = true := by
  cases i <;> simp only [encodeCommand, reduceCtorEq] at hi
  case noteOff => exact finish_notesOk hs (noteOffOp_notesOk hs) h
  case noteOnV0 => exact finish_notesOk hs (noteOffOp_notesOk hs) h
  case noteOn _ n vel => exact finish_notesOk hs (noteOnOp_notesOk hs (dataValue_nonneg n) (dataValue_le n)) h
  case ccSustain => exact finish_notesOk hs (sustainOp_notesOk hs) h
  case ccAllNotesOff =>
    cases h
    exact allNotesOffOp_notesOk hs
  all_goals cases h; exact notesOk_of_voices hs (notesOk_iff.1 hs).1 rfl rfl

theorem applyEvent_notesOk {bytes : List Byte} {s t : State} (hs : notesOk s = true)
    (h : applyEvent bytes s = .next t) : notesOk t = true := by
  unfold applyEvent at h
  split at h
  · obtain ⟨u, hu, rfl⟩ := mapNext_next.1 h
    exact (exec_event_notesOk (encodeCommand_of_decode ‹_›) hs hu : notesOk u = true)
  · cases h
    exact hs

theorem segmentFrame_notesOk {k : Key} {b : Block} {s t : State} (hs : notesOk s = true)
    (h : segmentFrame k b s = .ok t) : notesOk t = true :=
  notesOk_of_voices hs (fun i => (segmentFrame_sameNote h i).noteLegal ((notesOk_iff.1 hs).1 i))
    (segmentFrame_frame h).1.lastNote (segmentFrame_sameOutsideTick h).lastNote

/-- Of the host commands only `ALLOCATE` and `RESET` write voices: the one no note, the other FREE (47 R330, R332). -/
theorem CommandEffect.notesOk {s t : State} {c : HostCommand} (h : CommandEffect s c t)
    (hs : notesOk s = true) : notesOk t = true := by
  cases h with
  | reset => exact notesOk_iff.2 ⟨mapVoices_voiceReset_noteLegal _ _ _, fun _ => by simp⟩
  | allocated rate bs =>
    refine notesOk_of_voices hs (fun i => ?_) rfl rfl
    rw [complete_voices, allocateOp_voices]
    split
    · rw [getVoice_mapVoices]
      exact (notesOk_iff.1 hs).1 i
    · exact (notesOk_iff.1 hs).1 i
  | _ => exact hs

end Sys2Proof.Machine
end

section
/-!
SUPPORT. The LFO countdown (10_state.md R37; 46_render.md R294).
-/

namespace Sys2Proof.Machine

theorem countdownOk_iff {s : State} :
    countdownOk s = true ↔
      1 ≤ s.params.lfoMax ∧ (s.written.lfoStep = true → 0 ≤ s.lfoStep ∧ s.lfoStep ≤ s.params.lfoMax) := by
  cases h : s.written.lfoStep <;> simp [countdownOk, h]

/-- The LFO step counts down while something is left, and starts again from `LFO_MAX` (46 R294). -/
theorem lfoStepOp_countdownOk {k : Key} {s t : State} (hs : countdownOk s = true) (h : lfoStepOp k s = .ok t) :
    countdownOk t = true := by
  rw [countdownOk_iff] at hs ⊢
  obtain ⟨hmax, hrange⟩ := hs
  obtain ⟨hset, ⟨hpos, rfl⟩ | ⟨-, htick⟩⟩ := lfoStepOp_ok h
  · have := hrange hset
    exact ⟨hmax, fun _ => by dsimp only; omega⟩
  · obtain ⟨-, vs, -, rfl⟩ := lfoTick_ok htick
    exact ⟨hmax, fun _ => by simp⟩

/-- Of a frame step only the LFO step writes the countdown (46 R293, R294). -/
theorem segmentFrame_countdownOk {k : Key} {b : Block} {s t : State} (hs : countdownOk s = true)
    (h : segmentFrame k b s = .ok t) : countdownOk t = true := by
  obtain ⟨s1, s2, hopen, hframe, hclose⟩ := segmentFrame_ok h
  obtain ⟨ws, rfl⟩ := openSegment_eq hopen
  obtain ⟨u, x, lr, vs, hu, -, -, rfl⟩ := frame_ok hframe
  have kept := lfoStepOp_countdownOk (s := { s with voices := ws }) hs hu
  rcases closeSegment_ok hclose with ⟨-, rfl⟩ | ⟨-, rfl⟩ <;> exact kept

/-- Of the host commands only `RESET` writes the countdown, and it writes 0 (47 R332). -/
theorem CommandEffect.countdownOk {s t : State} {c : HostCommand} (h : CommandEffect s c t)
    (hs : countdownOk s = true) : countdownOk t = true := by
  cases h with
  | reset => exact countdownOk_iff.2 ⟨(countdownOk_iff.1 hs).1, fun _ => by simp⟩
  | _ => exact hs

end Sys2Proof.Machine
end

section
/-!
SUPPORT. The boot order, construction, `ALLOCATE`, `RESET` (10_state.md R60, R61; 70_reset_and_hazards.md R383).
-/

namespace Sys2Proof.Machine

/-- A run whose first step has a next state goes on from that state. -/
theorem run_succ_of_next {k : Nat} {s t : State} (h : step s = .next t) :
    core.run (k + 1) s = core.run k t := by
  have hstep : core.step s = .next t := h
  simp only [Host.Core.run, hstep]

/-- `VOICE.RESET` of a voice just constructed: FREE, silent and centred, with both pan gains `Sin(PI_OVER_4)` (10 R61;
43 R201, R205). -/
theorem voiceReset_constructed (k : Key) :
    voiceReset true k Voice.constructed = Voice.initial (Config.sin fPiOver4) := by
  simp only [voiceReset, voiceGains, writePan, fsub_one_zero, fadd_one_zero, fmul_piOver4_one]
  rfl

/-- The core between the two commands of the boot order: allocated at 44100 Hz, with `RESET` to be taken (70 R383). -/
def State.booting (bs : Int) : State :=
  { State.construction with
    lifecycle := .allocated, blockSize := bs, commands := [.reset], reply := .done, draws := 1 }

/-- `ALLOCATE` at 44100 Hz writes the sample rates that construction left there already (10 R60; 47 R330). -/
theorem step_allocate_construction {bs : Int} (h : 0 ≤ bs) :
    step { State.construction with commands := [.allocate (.f32 0x472C4400#32) bs, .reset] } =
      .next (State.booting bs) := by
  have rate : finitePositive 0x472C4400#32 = true := by decide +kernel
  have legal : allocArgsLegal 0x472C4400#32 bs = true := by simp [allocArgsLegal, rate, h]
  exact congrArg (mapNext nextDraw) (if_pos legal)

theorem mapVoices_replicate {f : Fin 8 → Voice → Voice} {v w : Voice} (h : ∀ i, f i v = w) :
    mapVoices f (VoiceFile.replicate v) = VoiceFile.replicate w :=
  voiceFile_ext fun i => by simp [h]

/-- `RESET` of that core gives every register the value of `State.reset` (10 R61; 47 R332). -/
theorem step_reset_booting (bs : Int) :
    step (State.booting bs) = .next { State.reset with blockSize := bs, reply := .done, draws := 2 } := by
  have voices : mapVoices (fun i v => voiceReset true (i.val :: [1]) v) (VoiceFile.replicate Voice.constructed) =
      VoiceFile.replicate (Voice.initial (Config.sin fPiOver4)) :=
    mapVoices_replicate fun i => voiceReset_constructed _
  exact congrArg
    (fun vs => (.next { State.reset with voices := vs, blockSize := bs, reply := .done, draws := 2 } : Result)) voices

end Sys2Proof.Machine
end

section
/-!
PROOFS. The statements of the family of 10_state.md.
-/

namespace Sys2Proof.Proofs

open Sys2Proof.Machine

/-- Settles O50. A frame that completed had read every register in question, and rendering cannot hang, so a frame with an
UNSET one stops at a read; a note event stops at its reads before its loop, which may hang, is entered. -/
theorem unsetReadFaults : Obligations.UnsetReadFaults := by
  refine ⟨fun k o => oscNext_unset k, fun k c s => frame_unset, ?_, ?_, ?_⟩
  · intro s b stop hf hb hstop hc hu
    exact step_of_unsetInFrame hf hb (by rwa [segmentEnd_of_stopsAt hstop]) hu
  · rintro i n s hi ⟨j, hj⟩
    exact exec_releasedNote_unset hi hj
  · intro ch n vel s h
    split at h
    · exact congrArg (finish s) (noteOnOp_unset_mono (by simpa [isMono]) h)
    · obtain ⟨j, hj, hl⟩ := h
      exact congrArg (finish s) (noteOnOp_unset_poly (by simpa [isMono]) hj hl)

/-- Settles O52, by cases on what a step can do: rendering writes no note, an event writes -1, 0, a data value or a note it
has read, `RESET` writes 0 and no other command writes one. -/
theorem notesStayLegal : Obligations.NotesStayLegal := by
  intro s t hs h
  cases (step_next h).2 with
  | frame b u _ _ hu => exact (segmentFrame_notesOk hs hu : notesOk u = true)
  | event b e _ _ _ _ ht => exact applyEvent_notesOk hs ht
  | frameFault | blockEnd | idle => exact hs
  | command c rest u _ _ hu => exact (hu.notesOk hs : notesOk u = true)

/-- Settles O53, by cases on what a step can do: only the LFO step of a frame and `RESET` write the countdown. -/
theorem countdownStaysInRange : Obligations.CountdownStaysInRange := by
  intro s t hs h
  cases (step_next h).2 with
  | frame b u _ _ hu => exact (segmentFrame_countdownOk hs hu : countdownOk u = true)
  | event b e _ _ _ _ ht =>
    rcases applyEvent_next ht with rfl | ⟨_, _, _, _, _, _, _, rfl⟩ <;> exact hs
  | frameFault | blockEnd | idle => exact hs
  | command c rest u _ _ hu => exact hu.countdownOk (s := { s with commands := rest }) hs

/-- Settles O56, by cases on what a step can do: a frame, an event and the end of a block write none of these fields, and a
host command is taken only between blocks. -/
theorem snapshotConstantInsideBlock : Obligations.SnapshotConstantInsideBlock := by
  intro s t hb h
  cases (step_next h).2 with
  | frame b u _ _ hu =>
    have keeps := (segmentFrame_frame hu).1
    exact ⟨keeps.snapshot, keeps.sampleRate, keeps.blockSize, keeps.lifecycle, keeps.params, keeps.commands⟩
  | frameFault => exact ⟨rfl, rfl, rfl, rfl, rfl, rfl⟩
  | event b e _ _ _ _ ht =>
    rcases applyEvent_next ht with rfl | ⟨_, _, _, _, _, _, _, rfl⟩ <;> exact ⟨rfl, rfl, rfl, rfl, rfl, rfl⟩
  | blockEnd => exact ⟨rfl, rfl, rfl, rfl, rfl, rfl⟩
  | idle hn => exact absurd hn hb
  | command _ _ _ hn => exact absurd hn hb

/-- Settles O31: `ALLOCATE`, then `RESET`, each by its own lemma. -/
theorem bootOrderReachesReset : Obligations.BootOrderReachesReset := by
  intro bs hbs
  exact (run_succ_of_next (step_allocate_construction hbs)).trans (run_succ_of_next (step_reset_booting bs))

/-- Settles O55, by evaluating each invariant at the two states. -/
theorem invariantsHoldAtReset : Obligations.InvariantsHoldAtReset := by
  have reset : unsetSafe State.reset = true := by decide +kernel
  exact ⟨⟨rfl, rfl, rfl, reset⟩, rfl, rfl, rfl, rfl⟩

end Sys2Proof.Proofs
end

section
/-!
SUPPORT. The signal path in the terms of the claims: an oscillator, an envelope, a filter and a voice that complete their
procedure make the step that the spec writes out (40 R136; 41 R162; 42 R183; 43 R202), and the loop of a frame mixes the
voices in order (46 R293).
-/

namespace Sys2Proof.Machine

open Sys2Proof.Claims

/-! ## Oscillator, envelope and filter -/

theorem oscCycleStart_cycleStart (k : Key) (o : Oscillator) {phase : F32} :
    CycleStart o phase (oscCycleStart k { o with phase := phase }).1 (oscCycleStart k { o with phase := phase }).2 := by
  refine ⟨fun n => n :: k, _, _, rfl, rfl, ?_, rfl⟩
  dsimp only [oscCycleStart, writePhaseMax, fHalf, fPi, f2]

theorem oscMidCycle_midCycle (k : Key) (o : Oscillator) {phase : F32} :
    MidCycle o phase (oscMidCycle k o.phaseMax { o with phase := phase }).1
      (oscMidCycle k o.phaseMax { o with phase := phase }).2 := by
  refine ⟨([0 :: 0 :: k, 1 :: 0 :: k, 1 :: k, 2 :: k, 3 :: k].getD · []), ?_, rfl⟩
  unfold oscMidCycle oscReflect
  cases flt o.phaseMax phase <;> rfl

/-- A completed `OSC.NEXT` takes the branch of its advanced phase (40 R136). -/
theorem oscNext_oscStep {k : Key} {o u : Oscillator} {x : F32} (h : oscNext k o = .ok (x, u)) : OscStep o x u := by
  obtain ⟨-, _, r, rfl, hr, hx, rfl⟩ := oscNext_ok.1 h
  refine ⟨([0 :: k, 2 :: k].getD · []), _, r.1, rfl, hx, ?_⟩
  by_cases hle : fle (fadd (0 :: k) o.phase o.inc) fPiOver4 = true
  · obtain rfl : r = _ := (if_pos hle).mp hr
    exact (if_pos hle).mpr (oscCycleStart_cycleStart _ o)
  · obtain ⟨hset, rfl⟩ : o.phaseMaxSet = true ∧ r = _ := (if_neg hle).mp hr
    exact (if_neg hle).mpr ⟨hset, oscMidCycle_midCycle _ o⟩

theorem envNext_envStep {k : Key} {e u : Envelope} {l : F32} (h : envNext k e = .ok (l, u)) : EnvStep e l u := by
  obtain ⟨rfl, rfl⟩ := Prod.mk.inj (envNext_ok.1 h).2
  exact ⟨([0 :: 0 :: k, 1 :: 0 :: k, 2 :: 0 :: k, 1 :: k].getD · []), rfl, rfl⟩

theorem filterRender_filterStep {k : Key} {x y : F32} {f u : Filter} (h : filterRender k x f = .ok (y, u)) :
    FilterStep f x y u := by
  obtain ⟨rfl, rfl⟩ := Prod.mk.inj (filterRender_ok.1 h).2
  exact ⟨fun n => n :: k, _, _, rfl, rfl, rfl, rfl⟩

/-! ## Voices -/

theorem voiceRender_rendered {fp : Bool} {k : Key} {x o : F32} {v u : Voice} (h : voiceRender fp k x v = .ok (o, u)) :
    Rendered fp x v o u := by
  obtain ⟨s1, s2, y, e, hosc1, hosc2, -, hsaw, hfilter, henv, ho, hu⟩ := voiceRender_ok h
  refine ⟨([2 :: k, 3 :: k, 4 :: k, 5 :: k, 8 :: k].getD · []), s1, s2, _, y, e, oscNext_oscStep hosc1,
    oscNext_oscStep hosc2, hsaw, rfl, ?_, envNext_envStep henv, ho, hu⟩
  cases fp with
  | true => exact filterRender_filterStep hfilter
  | false => exact hfilter

/-- `VOICE.RENDER` keeps the pan gains (43 R202). -/
theorem gains_of_rendered {fp : Bool} {x o : F32} {v u : Voice} (h : Rendered fp x v o u) :
    u.panLeft = v.panLeft ∧ u.panRight = v.panRight := by
  obtain ⟨_, _, _, _, _, _, -, -, -, -, -, -, -, hu⟩ := h
  rw [hu]
  exact ⟨rfl, rfl⟩

/-! ## The loop of a frame -/

/-- The mix of one voice, before the mix of the voices after it (46 R293). -/
theorem mixVoice_mixed {s : State} {x : F32} {k : Key} {lr lr' mix : F32 × F32} {v u : Voice}
    {rest : List (Voice × Voice)} (h : mixVoice s x k lr v = .ok (lr', u))
    (hrest : Mixed s.params.filterPresent x rest lr' mix) :
    Mixed s.params.filterPresent x ((v, u) :: rest) lr mix := by
  obtain ⟨-, h⟩ := mixVoice_ok h
  rw [Mixed]
  split at h
  · obtain ⟨o, hr, -, rfl⟩ := h
    have hv := voiceRender_rendered hr
    obtain ⟨hleft, hright⟩ := gains_of_rendered hv
    rw [hleft, hright] at hrest
    rw [if_pos ‹_›]
    exact ⟨fun n => (n + 1) :: k, o, hv, hrest⟩
  · obtain ⟨rfl, rfl⟩ := h
    rw [if_neg ‹_›]
    exact ⟨rfl, hrest⟩

/-- The loop over the voices reaches each one once, in index order (46 R293). -/
theorem foldVoices_mixed {s : State} {x : F32} {k : Key} {lr mix : F32 × F32} {vs ws : VoiceFile}
    (h : foldVoices (fun i lr v => mixVoice s x (i.val :: k) lr v) lr vs = .ok (mix, ws)) :
    Mixed s.params.filterPresent x ((voiceList vs).zip (voiceList ws)) lr mix := by
  simp only [foldVoices, bind_ok, pure_ok, Prod.exists, Prod.mk.injEq] at h
  obtain ⟨_, _, _, h0, _, _, _, h1, _, _, _, h2, _, _, _, h3, _, _, _, h4, _, _, _, h5, _, _, _, h6, _, _, _, h7,
    rfl, rfl⟩ := h
  exact mixVoice_mixed h0 <| mixVoice_mixed h1 <| mixVoice_mixed h2 <| mixVoice_mixed h3 <|
    mixVoice_mixed h4 <| mixVoice_mixed h5 <| mixVoice_mixed h6 <| mixVoice_mixed h7 rfl

/-! ## One sample frame -/

theorem lfoStepOp_afterLfoStep {k : Key} {s u : State} (h : lfoStepOp k s = .ok u) : AfterLfoStep s u := by
  unfold AfterLfoStep
  rcases (lfoStepOp_ok h).2 with ⟨hpos, rfl⟩ | ⟨hover, htick⟩
  · rw [if_neg (by omega)]
  · rw [if_pos (by omega)]
    exact ⟨k, htick⟩

end Sys2Proof.Machine
end

section
/-!
PROOFS. The statements of the family of 20_memory.md.
-/

namespace Sys2Proof.Proofs

open Sys2Proof.Machine Sys2Proof.Claims

/-- Settles O37. The LFO step keeps the seed, the snapshot and the output; after it come one noise draw, the loop over the
voices, and one write of the output. -/
theorem frameWritesOneElement : Obligations.FrameWritesOneElement := by
  intro k channels s t h
  have hseed := (frame_frame h).2
  obtain ⟨u, x, mix, vs, hlfo, hnoise, hmix, rfl⟩ := frame_ok h
  obtain ⟨same, -, hout⟩ := lfoStepOp_frame hlfo
  obtain ⟨-, -, hx⟩ := frameNoise_ok.1 hnoise
  refine ⟨hseed, ([0 :: 11 :: k, 1 :: 11 :: k, 0 :: 12 :: k, 1 :: 12 :: k, 2 :: 12 :: k, 3 :: 12 :: k].getD · []),
    u, x, mix, _, _, lfoStepOp_afterLfoStep hlfo, ?_, ?_, rfl, rfl, ?_⟩
  · rw [← same.snapshot]; exact hx.symm
  · rw [← same.params]; exact foldVoices_mixed hmix
  · rw [← same.snapshot, ← hout]; rfl

end Sys2Proof.Proofs
end

section
/-!
SUPPORT. The encoding of event records, field by field (30_encoding.md R100 to R107): the accessors and `encodeRecord`
undo each other; `Reads` says once what each row of the table reads, and the decoder, the encoder and the table agree
with it; the channel selects nothing.
-/

namespace Sys2Proof

/-! ## The fields of a byte -/

@[simp] theorem statusNibble_append (status low : BitVec 4) : statusNibble (status ++ low) = status :=
  BitVec.extractLsb'_append_eq_left

@[simp] theorem channelNibble_append (status low : BitVec 4) : channelNibble (status ++ low) = low :=
  BitVec.extractLsb'_append_eq_right

@[simp] theorem dataBits_append (d : BitVec 7) : dataBits (0#1 ++ d) = d := BitVec.extractLsb'_append_eq_right

@[simp] theorem statusNibble_append_channelNibble (b : Byte) : statusNibble b ++ channelNibble b = b :=
  BitVec.extractLsb'_append_extractLsb'

@[simp] theorem zero_append_dataBits (b : Byte) : 0#1 ++ dataBits b = b &&& 0x7F := by
  revert b; decide

@[simp] theorem dataBits_mask (b : Byte) : dataBits (b &&& 0x7F) = dataBits b := by
  revert b; decide

/-- 30 R100, R102. -/
theorem encodeRecord_fields (b0 b1 b2 : Byte) :
    encodeRecord (statusNibble b0) (channelNibble b0) (dataBits b1) (dataBits b2) = [b0, b1 &&& 0x7F, b2 &&& 0x7F] := by
  simp [encodeRecord]

theorem decode_encodeRecord (status low : BitVec 4) (d1 d2 : BitVec 7) :
    decode (encodeRecord status low d1 d2) = .ok (decodeFields status low d1 d2) := by
  simp [encodeRecord, decode, decodeRecord]

/-! ## What each row reads -/

/-- The rows of 30 R107: the status nibble, low nibble and data bytes each one takes and the instruction it reads from
them, so that no two rows take the same fields. The decoder, the encoder and the first-match table are tied to it by
`reads_decodeFields` and `Reads.decodeFields_eq`, `reads_of_encode` and `Reads.encodes`, and `Reads.firstRow_eq`. -/
inductive Reads : BitVec 4 → BitVec 4 → BitVec 7 → BitVec 7 → Instr → Prop
  | noteOff {low d1 d2} : Reads 0x8 low d1 d2 (.noteOff low d1 d2)
  | noteOnV0 {low d1} : Reads 0x9 low d1 0 (.noteOnV0 low d1)
  | noteOn {low d1 d2} (hvel : d2 ≠ 0#7) : Reads 0x9 low d1 d2 (.noteOn low d1 d2)
  | polyPressure {low d1 d2} : Reads 0xA low d1 d2 (.polyPressure low d1 d2)
  | ccModwheel {low d2} : Reads 0xB low 0x01 d2 (.ccModwheel low d2)
  | ccSustain {low d2} : Reads 0xB low 0x40 d2 (.ccSustain low d2)
  | ccAllNotesOff {low d1 d2} (hc : 0x78#7 ≤ d1) : Reads 0xB low d1 d2 (.ccAllNotesOff low d1 d2)
  | ccOther {low d1 d2} (hmod : d1 ≠ 0x01#7) (hsus : d1 ≠ 0x40#7) (hoff : ¬0x78#7 ≤ d1) :
      Reads 0xB low d1 d2 (.ccOther low d1 d2)
  | programChange {low d1 d2} : Reads 0xC low d1 d2 (.programChange low d1 d2)
  | channelPressure {low d1 d2} : Reads 0xD low d1 d2 (.channelPressure low d1 d2)
  | pitchBend {low d1 d2} : Reads 0xE low d1 d2 (.pitchBend low (d2 ++ d1))
  | system {low d1 d2} : Reads 0xF low d1 d2 (.system low d1 d2)
  | dataFirst {st low d1 d2} (hlow : st < 0x8#4) :
      Reads st low d1 d2 (.dataFirst (st.extractLsb' 0 3 ++ low) d1 d2)

/-- A status nibble that is none of 0x8 to 0xF is below 0x8. -/
theorem lt_eight_of_no_status {st : BitVec 4} (h8 : st ≠ 0x8) (h9 : st ≠ 0x9) (hA : st ≠ 0xA) (hB : st ≠ 0xB)
    (hC : st ≠ 0xC) (hD : st ≠ 0xD) (hE : st ≠ 0xE) (hF : st ≠ 0xF) : st < 0x8#4 := by
  have key : ∀ st ∉ [0x8#4, 0x9, 0xA, 0xB, 0xC, 0xD, 0xE, 0xF], st < 0x8#4 := by decide
  exact key st (by simpa using ⟨h8, h9, hA, hB, hC, hD, hE, hF⟩)

theorem ne_of_lt_eight {st x : BitVec 4} (hst : st < 0x8#4) (hx : 0x8#4 ≤ x) : st ≠ x := by
  rintro rfl
  exact BitVec.not_lt.2 hx hst

/-- The decoder reads what some row reads. -/
theorem reads_decodeFields (st low : BitVec 4) (d1 d2 : BitVec 7) : Reads st low d1 d2 (decodeFields st low d1 d2) := by
  unfold decodeFields decodeNoteOn decodeController
  split_ifs with h8 h9 hvel hA hB hmod hsus hoff hC hD hE hF
  · exact h8 ▸ .noteOff
  · exact h9 ▸ hvel ▸ .noteOnV0
  · exact h9 ▸ .noteOn hvel
  · exact hA ▸ .polyPressure
  · exact hB ▸ hmod ▸ .ccModwheel
  · exact hB ▸ hsus ▸ .ccSustain
  · exact hB ▸ .ccAllNotesOff hoff
  · exact hB ▸ .ccOther hmod hsus hoff
  · exact hC ▸ .programChange
  · exact hD ▸ .channelPressure
  · exact hE ▸ .pitchBend
  · exact hF ▸ .system
  · exact .dataFirst (lt_eight_of_no_status h8 h9 hA hB hC hD hE hF)

/-- A controller of row 8 is none of rows 5, 6 and 7. -/
theorem isOtherController_iff {c : BitVec 7} :
    isOtherController c = true ↔ c ≠ 0x01 ∧ c ≠ 0x40 ∧ ¬0x78 ≤ c := by
  simp only [isOtherController, Bool.and_eq_true, bne_iff_ne, decide_eq_true_eq, and_assoc, BitVec.not_le]

/-- A controller of row 7 is not one of rows 5 and 6. -/
theorem allNotesOff_controller {c : BitVec 7} (h : 0x78#7 ≤ c) : c ≠ 0x01#7 ∧ c ≠ 0x40#7 := by
  constructor <;> rintro rfl <;> exact absurd h (by decide)

theorem decodeFields_of_lt_eight {st : BitVec 4} (hlow : st < 0x8#4) (low : BitVec 4) (d1 d2 : BitVec 7) :
    decodeFields st low d1 d2 = .dataFirst (st.extractLsb' 0 3 ++ low) d1 d2 := by
  simp [decodeFields, ne_of_lt_eight hlow]

/-- No other row reads it: the rows exclude each other. -/
theorem Reads.decodeFields_eq {st low : BitVec 4} {d1 d2 : BitVec 7} {i : Instr} (h : Reads st low d1 d2 i) :
    decodeFields st low d1 d2 = i := by
  cases h with
  | noteOn hvel => exact if_neg hvel
  | ccAllNotesOff hc =>
    obtain ⟨hmod, hsus⟩ := allNotesOff_controller hc
    exact (if_neg hmod).trans ((if_neg hsus).trans (if_pos hc))
  | ccOther hmod hsus hoff => exact (if_neg hmod).trans ((if_neg hsus).trans (if_neg hoff))
  | dataFirst hlow => exact decodeFields_of_lt_eight hlow _ _ _
  | _ => rfl

/-! ## The encoder -/

/-- What a row reads is well-formed and encodes to the fields it was read from. -/
theorem Reads.encodes {st low : BitVec 4} {d1 d2 : BitVec 7} {i : Instr} (h : Reads st low d1 d2 i) :
    i.wellFormed = true ∧ encode i = some (encodeRecord st low d1 d2) := by
  cases h with
  | noteOn hvel => exact ⟨bne_iff_ne.2 hvel, rfl⟩
  | ccAllNotesOff hc => exact ⟨decide_eq_true hc, rfl⟩
  | ccOther hmod hsus hoff => exact ⟨isOtherController_iff.2 ⟨hmod, hsus, hoff⟩, rfl⟩
  | pitchBend =>
    exact ⟨rfl, by simp only [encode, BitVec.extractLsb'_append_eq_left, BitVec.extractLsb'_append_eq_right]⟩
  | @dataFirst st low _ _ hlow =>
    have split : ∀ st < 0x8#4, 0#1 ++ st.extractLsb' 0 3 = st := by decide
    have hst : 0#1 ++ (st.extractLsb' 0 3 ++ low).extractLsb' 4 3 = st := by
      rw [BitVec.extractLsb'_append_eq_left, split st hlow]
    exact ⟨rfl, by simp only [encode, hst, BitVec.extractLsb'_append_eq_right]⟩
  | _ => exact ⟨rfl, rfl⟩

/-- Conversely, a record of a well-formed instruction has fields that some row reads as that instruction. -/
theorem reads_of_encode {i : Instr} {bytes : List Byte} (hi : i.wellFormed = true) (h : encode i = some bytes) :
    ∃ st low d1 d2, bytes = encodeRecord st low d1 d2 ∧ Reads st low d1 d2 i := by
  cases i <;> cases h
  case noteOff => exact ⟨_, _, _, _, rfl, .noteOff⟩
  case noteOnV0 => exact ⟨_, _, _, _, rfl, .noteOnV0⟩
  case noteOn => exact ⟨_, _, _, _, rfl, .noteOn (bne_iff_ne.1 hi)⟩
  case polyPressure => exact ⟨_, _, _, _, rfl, .polyPressure⟩
  case ccModwheel => exact ⟨_, _, _, _, rfl, .ccModwheel⟩
  case ccSustain => exact ⟨_, _, _, _, rfl, .ccSustain⟩
  case ccAllNotesOff => exact ⟨_, _, _, _, rfl, .ccAllNotesOff (of_decide_eq_true hi)⟩
  case ccOther =>
    obtain ⟨hmod, hsus, hoff⟩ := isOtherController_iff.1 hi
    exact ⟨_, _, _, _, rfl, .ccOther hmod hsus hoff⟩
  case programChange => exact ⟨_, _, _, _, rfl, .programChange⟩
  case channelPressure => exact ⟨_, _, _, _, rfl, .channelPressure⟩
  case pitchBend ch bend =>
    have hbend : bend.extractLsb' 7 7 ++ bend.extractLsb' 0 7 = bend := BitVec.extractLsb'_append_extractLsb'
    have h : Reads 0xE ch (bend.extractLsb' 0 7) (bend.extractLsb' 7 7) (.pitchBend ch _) := .pitchBend
    exact ⟨_, _, _, _, rfl, by rwa [hbend] at h⟩
  case system => exact ⟨_, _, _, _, rfl, .system⟩
  case dataFirst d0 d1 d2 =>
    have hd0 : (0#1 ++ d0.extractLsb' 4 3).extractLsb' 0 3 ++ d0.extractLsb' 0 4 = d0 := by
      rw [BitVec.extractLsb'_append_eq_right]
      exact BitVec.extractLsb'_append_extractLsb'
    have hlow : ∀ hi : BitVec 3, 0#1 ++ hi < 0x8#4 := by decide
    have h := Reads.dataFirst (low := d0.extractLsb' 0 4) (d1 := d1) (d2 := d2) (hlow (d0.extractLsb' 4 3))
    exact ⟨_, _, _, _, rfl, by rwa [hd0] at h⟩

/-! ## The table of 30 R107 -/

/-- Two words of 24 bits are equal when their fields are (30 R100): the status, the low nibble, and bit 7 and the value
of either data byte. -/
theorem word_eq_iff {w x : BitVec 24} :
    w = x ↔ w.extractLsb' 20 4 = x.extractLsb' 20 4 ∧ w.extractLsb' 16 4 = x.extractLsb' 16 4 ∧
      w.extractLsb' 15 1 = x.extractLsb' 15 1 ∧ w.extractLsb' 8 7 = x.extractLsb' 8 7 ∧
      w.extractLsb' 7 1 = x.extractLsb' 7 1 ∧ w.extractLsb' 0 7 = x.extractLsb' 0 7 := by
  have split (v : BitVec 24) : v.extractLsb' 20 4 ++ v.extractLsb' 16 4 ++ v.extractLsb' 15 1 ++ v.extractLsb' 8 7 ++
      v.extractLsb' 7 1 ++ v.extractLsb' 0 7 = v := by
    simp only [BitVec.extractLsb'_append_extractLsb'_eq_extractLsb']
    exact BitVec.extractLsb'_eq_self
  constructor
  · rintro rfl
    exact ⟨rfl, rfl, rfl, rfl, rfl, rfl⟩
  · rintro ⟨hst, hlow, h15, h1, h7, h0⟩
    rw [← split w, ← split x, hst, hlow, h15, h1, h7, h0]

/-- The word of a record by its fields (30 R107). -/
theorem recordWord_eq (b0 b1 b2 : Byte) :
    recordWord b0 b1 b2 = statusNibble b0 ++ channelNibble b0 ++ (0#1 ++ dataBits b1) ++ (0#1 ++ dataBits b2) := by
  rw [zero_append_dataBits, zero_append_dataBits, statusNibble_append_channelNibble]
  rfl

theorem recordWord_fields (b0 b1 b2 : Byte) :
    (recordWord b0 b1 b2).extractLsb' 20 4 = statusNibble b0 ∧
      (recordWord b0 b1 b2).extractLsb' 16 4 = channelNibble b0 ∧
      (recordWord b0 b1 b2).extractLsb' 15 1 = 0 ∧ (recordWord b0 b1 b2).extractLsb' 8 7 = dataBits b1 ∧
      (recordWord b0 b1 b2).extractLsb' 7 1 = 0 ∧ (recordWord b0 b1 b2).extractLsb' 0 7 = dataBits b2 := by
  rw [recordWord_eq]
  simp only [BitVec.extractLsb'_append_eq_ite]
  simp

/-- A row's test of a record's word, field by field. -/
theorem recordWord_and_beq (b0 b1 b2 : Byte) (mask matched : BitVec 24) :
    (recordWord b0 b1 b2 &&& mask == matched) = decide (
      statusNibble b0 &&& mask.extractLsb' 20 4 = matched.extractLsb' 20 4 ∧
      channelNibble b0 &&& mask.extractLsb' 16 4 = matched.extractLsb' 16 4 ∧
      0 = matched.extractLsb' 15 1 ∧
      dataBits b1 &&& mask.extractLsb' 8 7 = matched.extractLsb' 8 7 ∧
      0 = matched.extractLsb' 7 1 ∧
      dataBits b2 &&& mask.extractLsb' 0 7 = matched.extractLsb' 0 7) := by
  obtain ⟨hst, hlow, h15, h1, h7, h2⟩ := recordWord_fields b0 b1 b2
  have zero (x : BitVec 1) : 0 &&& x = 0 := BitVec.zero_and
  rw [beq_eq_decide, decide_eq_decide, word_eq_iff]
  simp only [BitVec.extractLsb'_and, hst, hlow, h15, h1, h7, h2, zero]

/-- The row that reads a record is the first one whose mask and match its word meets: the test of each row before it
fails on the status, on the velocity or on the controller. -/
theorem Reads.firstRow_eq {b0 b1 b2 : Byte} {st low : BitVec 4} {d1 d2 : BitVec 7} {i : Instr}
    (h : Reads st low d1 d2 i) (hst : statusNibble b0 = st) (h1 : dataBits b1 = d1) (h2 : dataBits b2 = d2) :
    firstRow (recordWord b0 b1 b2) = some i.mnemonic := by
  have all4 (x : BitVec 4) : x &&& 0xF#4 = x := BitVec.and_allOnes
  have all7 (x : BitVec 7) : x &&& 0x7F#7 = x := BitVec.and_allOnes
  have h78 (x : BitVec 7) : x &&& 0x78#7 = 0x78#7 ↔ 0x78#7 ≤ x := by revert x; decide
  simp only [firstRow, rowTable, List.find?_cons, recordWord_and_beq, h1, h2, hst]
  cases h with
  | noteOn hvel => simp [all4, all7, hvel, Instr.mnemonic]
  | ccAllNotesOff hc => simp [all4, all7, h78, hc, allNotesOff_controller hc, Instr.mnemonic]
  | ccOther hmod hsus hoff => simp [all4, all7, h78, hmod, hsus, hoff, Instr.mnemonic]
  | @dataFirst st _ _ _ hlow =>
    have hbit : ∀ x < 0x8#4, x &&& 0x8#4 = 0 := by decide
    simp [all4, ne_of_lt_eight hlow, hbit st hlow, Instr.mnemonic]
  | _ => simp [all4, all7, Instr.mnemonic]

end Sys2Proof

namespace Sys2Proof.Machine

/-! ## The channel -/

/-- No arm of `exec` reads what the low nibble of the status byte gave its instruction (30 R101). -/
theorem exec_decodeFields_low (st low low' : BitVec 4) (d1 d2 : BitVec 7) (s : State) :
    exec (decodeFields st low d1 d2) s = exec (decodeFields st low' d1 d2) s := by
  unfold decodeFields decodeNoteOn decodeController
  split_ifs <;> rfl

/-- A decoded record acts by its status nibble and its data bytes. -/
theorem exec_decodeRecord_congr {b0 c0 : Byte} (h : statusNibble b0 = statusNibble c0) (b1 b2 : Byte) (s : State) :
    exec (decodeRecord b0 b1 b2) s = exec (decodeRecord c0 b1 b2) s := by
  unfold decodeRecord
  rw [h, exec_decodeFields_low]

end Sys2Proof.Machine
end

section
/-!
PROOFS. The statements of the family of 30_encoding.md.
-/

namespace Sys2Proof.Proofs

open Sys2Proof.Machine

/-- Settles O1. A record of a well-formed instruction has the fields that its row reads, and no other row reads them. -/
theorem decodeEncodeRoundTrip : Obligations.DecodeEncodeRoundTrip := by
  refine ⟨fun i bytes hi h => ?_, fun i c h => ?_, fun i => ?_⟩
  · obtain ⟨st, low, d1, d2, rfl, hrow⟩ := reads_of_encode hi h
    rw [decode_encodeRecord, hrow.decodeFields_eq]
  · cases i <;> cases h <;> rfl
  · cases i
    case allocate | deallocate | reset | processBlock => exact .inr rfl
    all_goals exact .inl rfl

/-- Settles O2: what the decoder reads is read by some row, and a row's instruction encodes to the fields it read. -/
theorem decodedRecordEncodesBack : Obligations.DecodedRecordEncodesBack := by
  intro b0 b1 b2 i h
  cases h
  rw [← encodeRecord_fields]
  exact (reads_decodeFields _ _ _ _).encodes

/-- Settles O3: the row that reads the record is the first whose mask and match its word meets. -/
theorem decoderSelectsFirstMatchingRow : Obligations.DecoderSelectsFirstMatchingRow := by
  intro b0 b1 b2
  exact ⟨_, rfl, (reads_decodeFields _ _ _ _).firstRow_eq rfl rfl rfl⟩

/-- Settles O6, by the length of the record. -/
theorem channelSelectsNothing : Obligations.ChannelSelectsNothing := by
  intro b0 c0 rest s h
  match rest with
  | [] => exact congrArg (mapNext afterEvent) (exec_decodeRecord_congr h 0 0 s)
  | [b1] => exact congrArg (mapNext afterEvent) (exec_decodeRecord_congr h b1 0 s)
  | [b1, b2] => exact congrArg (mapNext afterEvent) (exec_decodeRecord_congr h b1 b2 s)
  | _ :: _ :: _ :: _ => rfl

/-- Settles O4, by the length of the record. -/
theorem recordLengthDecidesFirst : Obligations.RecordLengthDecidesFirst := by
  refine ⟨fun _ => rfl, fun _ _ => rfl, fun b0 b1 b2 => ?_, fun bytes h => ?_, rfl⟩
  · simp only [decode, decodeRecord, dataBits_mask]
  · match bytes, h with
    | _ :: _ :: _ :: _ :: _, _ => rfl

/-- Settles O5, by evaluating the decoder on each record. -/
theorem sampleRecordsDecode : Obligations.SampleRecordsDecode := by
  unfold Obligations.SampleRecordsDecode
  decide

end Sys2Proof.Proofs
end

section
/-!
SUPPORT. Binary32 results that need no rounding: a magnitude of at most 24 significant bits rounds to itself, so such an
integer is a float exactly and its quotient by a power of two is exact (00_scope.md R8, R13).
-/

namespace Sys2Proof.Machine

/-! ## The fields of a value built from a sign and a magnitude -/

theorem fsign_fmk (neg : Bool) {m : Nat} (h : m < 2 ^ 31) : fsign (fmk neg m) = neg := by
  cases neg <;> simp only [fsign, fmk, BitVec.msb_eq_decide, BitVec.toNat_ofNat] <;> norm_num <;> omega

theorem fixedMag_fmk (neg : Bool) {m : Nat} (h : m < 2 ^ 31) : fixedMag (fmk neg m) = magUnits m := by
  rw [fixedMag_eq, fmag_fmk neg h]

theorem not_fisNaN_of_fisFinite {x : F32} (h : fisFinite x = true) : fisNaN x = false := by
  simp only [fisFinite, fisNaN, decide_eq_true_eq, decide_eq_false_iff_not] at *
  omega

theorem not_fisInf_of_fisFinite {x : F32} (h : fisFinite x = true) : fisInf x = false := by
  simp only [fisFinite, fisInf, decide_eq_true_eq, beq_eq_false_iff_ne] at *
  omega

/-- Flushing leaves a value alone that is zero or at least the least normal magnitude (92 D4). -/
theorem fflush_eq_self {x : F32} (h : fixedMag x = 0 ∨ 2 ^ 23 ≤ fixedMag x) : fflush x = x := by
  have hx : fisSubnormal x = false := by
    by_contra hsub
    simp only [fisSubnormal, Bool.not_eq_false, Bool.and_eq_true, decide_eq_true_eq] at hsub
    have hunits : fixedMag x = fmag x := by
      rw [fixedMag_eq, magUnits, if_pos (by omega)]
      omega
    omega
  simp [fflush, hx]

/-- A multiple of a normal magnitude is not flushed. -/
theorem fflush_of_scaled {x : F32} {a i : Nat} (hi : 23 ≤ i) (h : fixedMag x = a * 2 ^ i) : fflush x = x := by
  refine fflush_eq_self ?_
  rcases Nat.eq_zero_or_pos a with rfl | hpos
  · exact .inl (h.trans (Nat.zero_mul _))
  · exact .inr (h ▸ (Nat.pow_le_pow_right (by omega) hi).trans (Nat.le_mul_of_pos_left _ hpos))

/-- A value with the sign of `z` and a multiple of its magnitude is that multiple of `z`. -/
theorem fixedVal_eq_mul {x : F32} {z : Int} {c : Nat} (hsign : fsign x = decide (z < 0))
    (hmag : fixedMag x = z.natAbs * c) : fixedVal x = z * c := by
  rw [fixedVal, hsign, hmag, Nat.cast_mul]
  by_cases hneg : z < 0
  · rw [if_pos (decide_eq_true hneg), ← Int.neg_mul, Int.ofNat_natAbs_of_nonpos hneg.le, Int.neg_neg]
  · rw [if_neg (by simpa using hneg), Int.natAbs_of_nonneg (Int.not_lt.1 hneg)]

/-! ## Exact rounding -/

/-- A multiple of `2^q` is shifted by `q` bits without rounding. -/
theorem roundShift_of_dvd {n q : Nat} (h : 2 ^ q ∣ n) : roundShift n q * 2 ^ q = n := by
  obtain ⟨c, rfl⟩ := h
  have hbest := (roundShift_best (2 ^ q * c) q c).1
  rw [Nat.mul_comm c] at hbest
  omega

/-- Rounding shifts a number of at most 24 bits above its `j` low zeros by no more than those zeros. -/
theorem pow_roundBits_dvd {a j k : Nat} (ha : a ≤ 2 ^ 24) (hk : k ≤ j) :
    2 ^ roundBits (a * 2 ^ j) k ∣ a * 2 ^ j := by
  have hkb : k ≤ roundBits (a * 2 ^ j) k := Nat.le_max_right ..
  rcases Nat.lt_or_eq_of_le ha with hlt | rfl
  · refine Nat.dvd_mul_left_of_dvd (Nat.pow_dvd_pow 2 ?_) a
    rcases Nat.eq_or_lt_of_le hkb with he | hgt
    · omega
    · have hlow := pow_roundBits_le hgt
      have hhigh : a * 2 ^ j < 2 ^ (24 + j) := by
        rw [Nat.pow_add]
        exact Nat.mul_lt_mul_of_pos_right hlt (Nat.two_pow_pos j)
      have := (Nat.pow_lt_pow_iff_right (by omega : 1 < 2)).1 (hlow.trans_lt hhigh)
      omega
  · rw [← Nat.pow_add]
    refine Nat.pow_dvd_pow 2 ?_
    rw [roundBits, Nat.log2_two_pow]
    omega

/-- A magnitude of at most 24 significant bits, on the grid and below the overflow threshold, is not rounded. -/
theorem roundMag_exact {a j k : Nat} (ha : a ≤ 2 ^ 24) (hk : k ≤ j) (hj : j ≤ 252 + k) :
    roundMag (a * 2 ^ j) k < 0x7F800000 ∧ magUnits (roundMag (a * 2 ^ j) k) * 2 ^ k = a * 2 ^ j := by
  have hlt : a * 2 ^ j < (2 ^ 25 - 1) * 2 ^ (252 + k) :=
    Nat.mul_lt_mul_of_lt_of_le (by omega) (Nat.pow_le_pow_right (by omega) hj) (Nat.two_pow_pos _)
  exact ⟨(roundMag_lt_iff _ _).2 hlt, (magUnits_roundMag hlt).1.trans (roundShift_of_dvd (pow_roundBits_dvd ha hk))⟩

/-- A value built from such a magnitude stands for it (00 R8). -/
theorem fmk_roundMag_exact (neg : Bool) {a j k : Nat} (ha : a ≤ 2 ^ 24) (hk : k ≤ j) (hj : j ≤ 252 + k) :
    fisFinite (fmk neg (roundMag (a * 2 ^ j) k)) = true ∧ fsign (fmk neg (roundMag (a * 2 ^ j) k)) = neg ∧
      fixedMag (fmk neg (roundMag (a * 2 ^ j) k)) = a * 2 ^ (j - k) := by
  obtain ⟨hfin, hunits⟩ := roundMag_exact ha hk hj
  have h31 : roundMag (a * 2 ^ j) k < 2 ^ 31 := by omega
  refine ⟨?_, fsign_fmk neg h31, ?_⟩
  · rwa [fisFinite, fmag_fmk neg h31, decide_eq_true_eq]
  · rw [fixedMag_fmk neg h31]
    refine Nat.eq_of_mul_eq_mul_right (Nat.two_pow_pos k) (hunits.trans ?_)
    rw [Nat.mul_assoc, ← Nat.pow_add, Nat.sub_add_cancel hk]

/-! ## Integers and quotients -/

/-- An integer of at most 24 bits is a float exactly (00 R13). -/
theorem fofInt_exact {z : Int} (hz : z.natAbs ≤ 2 ^ 24) :
    fisFinite (fofInt z) = true ∧ fsign (fofInt z) = decide (z < 0) ∧ fixedMag (fofInt z) = z.natAbs * 2 ^ 149 := by
  rw [fofInt, Nat.shiftLeft_eq]
  exact fmk_roundMag_exact (decide (z < 0)) hz (Nat.zero_le 149) (by omega)

/-- Division of finite values that flushing leaves alone, by a value that is not zero, rounds their quotient (00 R8). -/
theorem fdiv_of_finite (k : Key) {x y : F32} (hx : fisFinite x = true) (hy : fisFinite y = true)
    (hxf : fflush x = x) (hyf : fflush y = y) (hy0 : fisZero y = false) :
    fdiv k x y = fflush (fmk (fsign x != fsign y) (divMag (fixedMag x) (fixedMag y))) := by
  simp [fdiv, hxf, hyf, hy0, not_fisNaN_of_fisFinite hx, not_fisNaN_of_fisFinite hy, not_fisInf_of_fisFinite hx,
    not_fisInf_of_fisFinite hy]

/-- Dividing by a power of two that the scaled dividend is a multiple of leaves nothing over to round. -/
theorem divMag_two_pow (a : Nat) {i j : Nat} (h : j ≤ i + 151) :
    divMag (a * 2 ^ i) (2 ^ j) = roundMag (a * 2 ^ (i + 152 - j)) 3 := by
  have hn : (a * 2 ^ i) <<< 151 = a * 2 ^ (i + 151 - j) * 2 ^ j := by
    rw [Nat.shiftLeft_eq, Nat.mul_assoc, Nat.mul_assoc, ← Nat.pow_add, ← Nat.pow_add, Nat.sub_add_cancel h]
  have hmul : 2 * (a * 2 ^ (i + 151 - j)) = a * 2 ^ (i + 152 - j) := by
    rw [show i + 152 - j = i + 151 - j + 1 by omega, Nat.pow_succ]
    ring
  rw [divMag, hn, Nat.mul_div_cancel _ (Nat.two_pow_pos j), if_pos (Nat.mul_mod_left ..), hmul, Nat.add_zero]

/-- An integer of at most 24 bits over 2^24 is exact: it is that many units of 2^-24 (40 R132). -/
theorem fdiv_fofInt_two24_exact (k : Key) {z : Int} (hz : z.natAbs ≤ 2 ^ 24) :
    fisFinite (fdiv k (fofInt z) fTwo24) = true ∧ fixedVal (fdiv k (fofInt z) fTwo24) = z * 2 ^ 125 := by
  obtain ⟨hfin, hsign, hmag⟩ := fofInt_exact hz
  have two24 : fixedMag fTwo24 = 2 ^ 173 := by decide +kernel
  have quotient : fdiv k (fofInt z) fTwo24 = fflush (fmk (decide (z < 0)) (roundMag (z.natAbs * 2 ^ 128) 3)) := by
    rw [fdiv_of_finite k hfin (by decide) (fflush_of_scaled (by omega) hmag)
      (fflush_of_scaled (a := 1) (by omega) (two24.trans (Nat.one_mul _).symm)) (by decide), hmag, two24,
      divMag_two_pow _ (by omega), hsign, show fsign fTwo24 = false by decide, Bool.bne_false]
  obtain ⟨hqfin, hqsign, hqmag⟩ := fmk_roundMag_exact (decide (z < 0)) hz (by omega : 3 ≤ 128) (by omega)
  rw [quotient, fflush_of_scaled (by omega) hqmag]
  exact ⟨hqfin, fixedVal_eq_mul hqsign hqmag⟩

/-! ## The noise generator -/

theorem noiseTemp_eq (seed : BitVec 32) : noiseTemp seed = ((seed.toNat / 128 : Nat) : Int) - 16777216 := by
  rw [noiseTemp, BitVec.toNat_ushiftRight, Nat.shiftRight_eq_div_pow]

/-- `temp` is from -2^24 to 2^24 - 1 (40 R132). -/
theorem noiseTemp_range (seed : BitVec 32) : -(2 ^ 24) ≤ noiseTemp seed ∧ noiseTemp seed < 2 ^ 24 := by
  have := seed.isLt
  rw [noiseTemp_eq]
  omega

end Sys2Proof.Machine
end

section
/-!
SUPPORT. The oscillator after a reset, and the square-wave start (40_noise_oscillator.md R135, R136, R138).
-/

namespace Sys2Proof.Machine

open Sys2Proof.Claims

/-- `OSC.NEXT` completes when the phase and `phaseMax` hold values (40 R136). -/
theorem oscNext_completes (k : Key) {o : Oscillator} (hc : o.cycleSet = true) (hm : o.phaseMaxSet = true) :
    ∃ x u, oscNext k o = .ok (x, u) := by
  by_cases hle : fle (fadd (0 :: k) o.phase o.inc) fPiOver4 = true
  · exact ⟨_, _, oscNext_ok.2 ⟨hc, _, _, rfl, (if_pos hle).mpr rfl, rfl, rfl⟩⟩
  · exact ⟨_, _, oscNext_ok.2 ⟨hc, _, _, rfl, (if_neg hle).mpr ⟨hm, rfl⟩, rfl, rfl⟩⟩

/-- The square of -0.0 is not above `KERNEL_EPS`, so the kernel value at a zero phase is the amplitude (40 R136). -/
theorem oscCycleStart_zero_phase (k : Key) (o : Oscillator) :
    (oscCycleStart k { o with phase := f0 }).1 = o.amplitude := by
  have square (k : Key) : fmul k (fneg f0) (fneg f0) = f0 := fmul_eq (by decide +kernel) (by decide) k
  have small : fexceedsKernelEps f0 = false := by decide +kernel
  simp [oscCycleStart, square, small]

/-- The first call of a reset oscillator starts a cycle at the phase +0.0 (40 R135, R136). -/
theorem oscNext_oscReset (k : Key) (o : Oscillator) :
    oscNext k (oscReset o) =
      .ok (fsub (2 :: k) o.amplitude (oscCycleStart (1 :: k) (oscReset o)).2.dc,
        (oscCycleStart (1 :: k) (oscReset o)).2) := by
  have advanced : { oscReset o with phase := fadd (0 :: k) (oscReset o).phase (oscReset o).inc } = oscReset o :=
    congrArg (fun x => { oscReset o with phase := x }) (fadd_zero_zero (0 :: k))
  have early : fle f0 fPiOver4 = true := by decide
  have kernelValue : (oscCycleStart (1 :: k) (oscReset o)).1 = o.amplitude :=
    oscCycleStart_zero_phase (1 :: k) (oscReset o)
  refine oscNext_ok.2 ⟨rfl, oscReset o, _, advanced.symm, (if_pos early).mpr rfl, ?_, rfl⟩
  rw [kernelValue]

/-- What `OSC.SQUAREWAVE` takes from the other oscillator, with what it reads in each branch (40 R138). -/
theorem squareWaveStart_ok {k : Key} {other : Oscillator} {r : F32 × F32} :
    squareWaveStart k other = .ok r ↔
      other.cycleSet = true ∧
        if flt f0 other.inc then
          other.phaseMaxSet = true ∧
            (fsub (1 :: k) (fadd (0 :: k) other.phaseMax other.phaseMax) other.phase, fneg other.inc) = r
        else if flt other.inc f0 then (other.phase, other.inc) = r
        else (fneg fPi, fPi) = r := by
  unfold squareWaveStart
  rw [need_bind_ok]
  refine and_congr_right fun _ => ?_
  split
  · simp only [bind_ok, readPhaseMax, readSet_ok, pure_ok, and_assoc, exists_and_left, exists_eq_left']
  · split <;> rw [pure_ok]

/-- A completed `OSC.SQUAREWAVE` read a start phase and an `inc`, and wrote a reset oscillator with them (40 R138). -/
theorem oscSquareWave_ok {k : Key} {o other u : Oscillator} {p : F32} :
    oscSquareWave k o other p = .ok u ↔
      ∃ start inc, squareWaveStart (0 :: k) other = .ok (start, inc) ∧
        ∃ phase, fadd (3 :: k) start (fdiv (2 :: k) (fmul (1 :: k) fPi p) f2) = phase ∧
          writePhaseMax phase { oscReset o with phase := phase, inc := inc } = u := by
  simp only [oscSquareWave, bind_ok, pure_ok, Prod.exists, exists_eq_left']

theorem oscSquareWave_resynchronised {k : Key} {o other u : Oscillator} {p : F32}
    (h : oscSquareWave k o other p = .ok u) : Resynchronised o other p u := by
  obtain ⟨start, inc, hstart, _, rfl, rfl⟩ := oscSquareWave_ok.1 h
  refine ⟨([0 :: 0 :: k, 1 :: 0 :: k, 1 :: k, 2 :: k, 3 :: k].getD · []), start, ?_, rfl⟩
  obtain ⟨-, hbranch⟩ := squareWaveStart_ok.1 hstart
  by_cases hrise : flt f0 other.inc = true
  · obtain ⟨rfl, rfl⟩ := Prod.mk.inj ((if_pos hrise).mp hbranch).2
    exact (if_pos hrise).mpr ⟨rfl, rfl⟩
  · refine (if_neg hrise).mpr ?_
    replace hbranch := (if_neg hrise).mp hbranch
    by_cases hfall : flt other.inc f0 = true
    · obtain ⟨rfl, rfl⟩ := Prod.mk.inj ((if_pos hfall).mp hbranch)
      exact (if_pos hfall).mpr ⟨rfl, rfl⟩
    · obtain ⟨rfl, rfl⟩ := Prod.mk.inj ((if_neg hfall).mp hbranch)
      exact (if_neg hfall).mpr ⟨rfl, rfl⟩

/-- `OSC.SQUAREWAVE` reads `phaseMax` of the other oscillator only when its phase rises (40 R138). -/
theorem squareWaveStart_completes (k : Key) {other : Oscillator} (hc : other.cycleSet = true)
    (hm : flt f0 other.inc = true → other.phaseMaxSet = true) : ∃ r, squareWaveStart k other = .ok r := by
  by_cases hrise : flt f0 other.inc = true
  · exact ⟨_, squareWaveStart_ok.2 ⟨hc, (if_pos hrise).mpr ⟨hm hrise, rfl⟩⟩⟩
  · by_cases hfall : flt other.inc f0 = true
    · exact ⟨_, squareWaveStart_ok.2 ⟨hc, (if_neg hrise).mpr ((if_pos hfall).mpr rfl)⟩⟩
    · exact ⟨_, squareWaveStart_ok.2 ⟨hc, (if_neg hrise).mpr ((if_neg hfall).mpr rfl)⟩⟩

end Sys2Proof.Machine
end

section
/-!
PROOFS. The statements of the family of 40_noise_oscillator.md.
-/

namespace Sys2Proof.Proofs

open Sys2Proof.Machine

/-- Settles O38: `temp` has at most 24 bits, so neither its conversion nor the division by 2^24 rounds. -/
theorem noiseSampleIsExact : Obligations.NoiseSampleIsExact := by
  intro k seed
  rw [← noiseTemp_eq]
  obtain ⟨hlow, hhigh⟩ := noiseTemp_range seed
  obtain ⟨hfin, hval⟩ := fdiv_fofInt_two24_exact k (z := noiseTemp seed) (by omega)
  exact ⟨hfin, hval, hlow, hhigh⟩

/-- Settles O44: a completed call takes the branch of its advanced phase, and a reset oscillator's is +0.0. -/
theorem resetOscillatorStartsCycle : Obligations.ResetOscillatorStartsCycle := by
  refine ⟨fun k o x u h => ⟨(oscNext_ok.1 h).1, oscNext_oscStep h⟩, fun k o => oscNext_completes k, fun k o => ?_⟩
  have negated : fneg f0 = 0x80000000#32 := by decide
  exact ⟨_, _, _, oscNext_oscReset k o, rfl, negated, rfl, rfl, rfl, rfl⟩

/-- Settles O45, by the three branches of the start phase. -/
theorem squareWaveResynchronises : Obligations.SquareWaveResynchronises := by
  refine ⟨fun k o other p u => oscSquareWave_resynchronised, fun k o other p hc hm => ?_⟩
  obtain ⟨⟨start, inc⟩, hstart⟩ := squareWaveStart_completes (0 :: k) hc hm
  exact ⟨_, oscSquareWave_ok.2 ⟨start, inc, hstart, _, rfl, rfl⟩⟩

end Sys2Proof.Proofs
end

section
/-!
SUPPORT. Binary32 results that stay between +0.0 and an operand: flushing, adding a zero, and multiplying by a value of
[0, 1) never raise a value of at least 0 and never take it below 0 (00_scope.md R8; 92 D4).
-/

namespace Sys2Proof.Machine

/-! ## Comparisons and the place in the order -/

theorem fle_iff {x y : F32} : fle x y = true ↔ fisNaN x = false ∧ fisNaN y = false ∧ forder x ≤ forder y := by
  simp [fle, and_assoc]

theorem flt_iff {x y : F32} : flt x y = true ↔ fisNaN x = false ∧ fisNaN y = false ∧ forder x < forder y := by
  simp [flt, and_assoc]

theorem natAbs_forder (x : F32) : (forder x).natAbs = fmag x := by
  cases h : fsign x <;> simp [forder, h]

theorem fisFinite_iff {x : F32} : fisFinite x = true ↔ (forder x).natAbs < 0x7F800000 := by
  rw [natAbs_forder, fisFinite, decide_eq_true_eq]

theorem fmag_lt_of_fisFinite {x : F32} (h : fisFinite x = true) : fmag x < 0x7F800000 := by
  rwa [fisFinite, decide_eq_true_eq] at h

theorem forder_fmk (neg : Bool) {m : Nat} (h : m < 2 ^ 31) : forder (fmk neg m) = if neg then -(m : Int) else m := by
  rw [forder, fsign_fmk neg h, fmag_fmk neg h]

@[simp] theorem forder_fzero (neg : Bool) : forder (fzero neg) = 0 := by cases neg <;> decide

/-- A value is built from its sign and the bits below it. -/
theorem fmk_fsign_fmag (x : F32) : fmk (fsign x) (fmag x) = x := by
  have := x.isLt
  apply BitVec.eq_of_toNat_eq
  rw [fmk, fsign, fmag, BitVec.msb_eq_decide, BitVec.toNat_ofNat]
  split <;> rename_i h <;> simp only [decide_eq_true_eq] at h <;> omega

/-! ## Magnitudes in units -/

theorem magUnits_eq_zero {m : Nat} : magUnits m = 0 ↔ m = 0 :=
  by
  rw [← magUnits_strictMono.injective.eq_iff (a := m), show magUnits 0 = 0 by decide]

theorem natAbs_fixedVal (x : F32) : (fixedVal x).natAbs = magUnits (fmag x) := by
  rw [← fixedMag_eq]
  cases h : fsign x <;> simp [fixedVal, h]

theorem fixedVal_eq_zero {x : F32} : fixedVal x = 0 ↔ fmag x = 0 := by
  rw [← Int.natAbs_eq_zero, natAbs_fixedVal, magUnits_eq_zero]

/-- The sign bit of a value other than the zeros says whether it is below 0. -/
theorem decide_fixedVal_neg {x : F32} (h : fixedVal x ≠ 0) : decide (fixedVal x < 0) = fsign x := by
  unfold fixedVal at h ⊢
  cases hs : fsign x <;> simp only [hs, if_true, if_false, Bool.false_eq_true] at h ⊢ <;>
    simp only [decide_eq_true_eq, decide_eq_false_iff_not] <;> omega

/-- The units of a finite magnitude stay below the overflow threshold (00 R14 (b)). -/
theorem magUnits_lt_overflow {m : Nat} (h : m < 0x7F800000) : magUnits m < (2 ^ 25 - 1) * 2 ^ 252 := by
  have greatest : magUnits 0x7F7FFFFF < (2 ^ 25 - 1) * 2 ^ 252 := by decide +kernel
  exact (magUnits_strictMono.monotone (by omega)).trans_lt greatest

/-- What is at most a finite magnitude rounds to at most that magnitude. -/
theorem roundMag_le {n k m : Nat} (hm : m < 0x7F800000) (h : n ≤ magUnits m * 2 ^ k) : roundMag n k ≤ m := by
  have hlt : n < (2 ^ 25 - 1) * 2 ^ (252 + k) := by
    rw [Nat.pow_add, ← Nat.mul_assoc]
    exact h.trans_lt (Nat.mul_lt_mul_of_pos_right (magUnits_lt_overflow hm) (Nat.two_pow_pos k))
  by_contra hgt
  have above := Nat.mul_lt_mul_of_pos_right (magUnits_strictMono (Nat.lt_of_not_le hgt)) (Nat.two_pow_pos k)
  have nearest := (roundMag_nearest hlt m).1
  omega

/-- A finite magnitude rounds to itself. -/
theorem roundMag_magUnits {m : Nat} (hm : m < 0x7F800000) : roundMag (magUnits m) 0 = m := by
  have hlt := magUnits_lt_overflow hm
  have nearest := (roundMag_nearest (k := 0) (by omega) m).1
  exact magUnits_strictMono.injective (by omega)

/-! ## Flushing -/

/-- Flushing keeps a value or makes it the zero of its sign (92 D4). -/
theorem fflush_cases (x : F32) : fflush x = x ∨ fflush x = fzero (fsign x) := by
  cases hsub : fisSubnormal x <;> cases hftz : Config.ftz <;> simp [fflush, hsub, hftz]

theorem fflush_fzero (neg : Bool) : fflush (fzero neg) = fzero neg := fflush_eq_self (.inl (by cases neg <;> decide))

@[simp] theorem fflush_fflush (x : F32) : fflush (fflush x) = fflush x := by
  obtain h | h := fflush_cases x <;> simp only [h, fflush_fzero]

/-- Flushing brings no value of at least 0 below 0 and none up. -/
theorem forder_fflush_mem {x : F32} (h : 0 ≤ forder x) : forder (fflush x) ∈ Set.Icc 0 (forder x) := by
  obtain hx | hx := fflush_cases x <;> rw [hx]
  · exact ⟨h, le_rfl⟩
  · rw [forder_fzero]; exact ⟨le_rfl, h⟩

theorem fisFinite_fflush {x : F32} (h : fisFinite x = true) : fisFinite (fflush x) = true := by
  obtain hx | hx := fflush_cases x <;> rw [hx]
  · exact h
  · cases fsign x <;> decide

/-! ## Sums with a zero -/

theorem fadd_of_finite (k : Key) {x y : F32} (hx : fisFinite x = true) (hy : fisFinite y = true) :
    fadd k x y = faddFinite (fflush x) (fflush y) := by
  have hx := fisFinite_fflush hx
  have hy := fisFinite_fflush hy
  simp only [fadd, not_fisNaN_of_fisFinite hx, not_fisNaN_of_fisFinite hy, not_fisInf_of_fisFinite hx,
    not_fisInf_of_fisFinite hy, Bool.or_self, Bool.false_eq_true, if_false]

/-- Adding a zero keeps the place of a finite value, but for flushing (00 R8). -/
theorem forder_fadd_zero (k : Key) {x z : F32} (hx : fisFinite x = true) (hz : fmag z = 0) :
    forder (fadd k x z) = forder (fflush x) := by
  have zfin : fisFinite z = true := by rw [fisFinite, hz]; decide
  have zflush : fflush z = z := fflush_eq_self (.inl (by rw [fixedMag_eq, magUnits_eq_zero, hz]))
  rw [fadd_of_finite k hx zfin, zflush, faddFinite, fixedVal_eq_zero.2 hz, Int.add_zero]
  split
  next hzero => rw [forder_fzero, ← Int.natAbs_eq_zero.1 ((natAbs_forder _).trans (fixedVal_eq_zero.1 hzero))]
  next hne =>
    rw [decide_fixedVal_neg hne, natAbs_fixedVal, roundMag_magUnits (fmag_lt_of_fisFinite (fisFinite_fflush hx)),
      fmk_fsign_fmag, fflush_fflush]

/-! ## Products with a value of [0, 1) -/

theorem fmul_of_finite (k : Key) {x y : F32} (hx : fisFinite x = true) (hy : fisFinite y = true) :
    fmul k x y = fflush (fmk (fsign (fflush x) != fsign (fflush y))
      (roundMag (fixedMag (fflush x) * fixedMag (fflush y)) 149)) := by
  have hx := fisFinite_fflush hx
  have hy := fisFinite_fflush hy
  simp only [fmul, not_fisNaN_of_fisFinite hx, not_fisNaN_of_fisFinite hy, not_fisInf_of_fisFinite hx,
    not_fisInf_of_fisFinite hy, Bool.or_self, Bool.false_eq_true, if_false]

/-- A value of at least 0 with its sign bit set is -0.0. -/
theorem fixedMag_eq_zero_of_fsign {x : F32} (h : 0 ≤ forder x) (hs : fsign x = true) : fixedMag x = 0 := by
  rw [fixedMag_eq, magUnits_eq_zero]
  rw [forder, if_pos hs] at h
  omega

/-- A value of [0, 1) has at most the 2^149 units of 1. -/
theorem fixedMag_le_one {x : F32} (h0 : 0 ≤ forder x) (h1 : forder x < forder f1) : fixedMag x ≤ 2 ^ 149 := by
  have one : magUnits 0x3F800000 = 2 ^ 149 := by decide +kernel
  have hx := natAbs_forder x
  rw [show forder f1 = 0x3F800000 by decide] at h1
  rw [fixedMag_eq, ← one]
  exact magUnits_strictMono.monotone (by omega)

/-- The rounded product with a value of [0, 1) has at most the magnitude of the other operand. -/
theorem roundMag_mul_le {m x : F32} (hm0 : 0 ≤ forder m) (hm1 : forder m < forder f1) (hx : fisFinite x = true) :
    roundMag (fixedMag m * fixedMag x) 149 ≤ fmag x := by
  refine roundMag_le (fmag_lt_of_fisFinite hx) ?_
  rw [← fixedMag_eq, Nat.mul_comm]
  exact Nat.mul_le_mul_left _ (fixedMag_le_one hm0 hm1)

/-- Two values of at least 0 have different sign bits only when one is -0.0. -/
theorem fixedMag_mul_eq_zero {m x : F32} (hm0 : 0 ≤ forder m) (hx0 : 0 ≤ forder x)
    (hsigns : (fsign m != fsign x) = true) : fixedMag m * fixedMag x = 0 := by
  rw [Nat.mul_eq_zero]
  cases hs : fsign m with
  | true => exact .inl (fixedMag_eq_zero_of_fsign hm0 hs)
  | false => exact .inr (fixedMag_eq_zero_of_fsign hx0 (by simpa [hs] using hsigns))

/-- The product with a value of [0, 1), before flushing, lies between 0 and the other operand. -/
theorem forder_product_mem {m x : F32} (hm0 : 0 ≤ forder m) (hm1 : forder m < forder f1) (hx : fisFinite x = true)
    (hx0 : 0 ≤ forder x) :
    forder (fmk (fsign m != fsign x) (roundMag (fixedMag m * fixedMag x) 149)) ∈ Set.Icc 0 (forder x) := by
  have rounded := roundMag_mul_le hm0 hm1 hx
  have xmag := fmag_lt_of_fisFinite hx
  rw [forder_fmk _ (by omega)]
  split
  next hsigns =>
    rw [fixedMag_mul_eq_zero hm0 hx0 hsigns, show roundMag 0 149 = 0 by decide]
    exact ⟨le_rfl, hx0⟩
  next =>
    have := natAbs_forder x
    constructor <;> omega

/-- Multiplying a finite value of at least 0 by one of [0, 1) keeps it between 0 and itself. -/
theorem forder_fmul_mem (k : Key) {m x : F32} (hm0 : 0 ≤ forder m) (hm1 : forder m < forder f1)
    (hx : fisFinite x = true) (hx0 : 0 ≤ forder x) : forder (fmul k m x) ∈ Set.Icc 0 (forder x) := by
  have mfin : fisFinite m = true := by
    rw [show forder f1 = 0x3F800000 by decide] at hm1
    exact fisFinite_iff.2 (by omega)
  obtain ⟨m0, mle⟩ := forder_fflush_mem hm0
  obtain ⟨x0, xle⟩ := forder_fflush_mem hx0
  obtain ⟨product0, productLe⟩ := forder_product_mem m0 (mle.trans_lt hm1) (fisFinite_fflush hx) x0
  obtain ⟨flushed0, flushedLe⟩ := forder_fflush_mem product0
  rw [fmul_of_finite k mfin hx]
  exact ⟨flushed0, flushedLe.trans (productLe.trans xle)⟩

end Sys2Proof.Machine
end

section
/-!
SUPPORT. The phases of an envelope, and its level in release (41_envelope.md R161 to R164, R167, R168).
-/

namespace Sys2Proof.Machine

/-! ## Phases -/

/-- The phase is ATTACK exactly while the target is at least 2.0 (41 R166, R167). -/
theorem envPhase_eq_attack {e : Envelope} : envPhase e = .attack ↔ envIsInAttack e = true := by
  unfold envPhase
  split
  next h => exact iff_of_true rfl h
  next h => refine iff_of_false ?_ h; split_ifs <;> simp

/-- Out of the attack, a level of at most `SILENCE` is IDLE (41 R167). -/
theorem envPhase_eq_idle {e : Envelope} (hattack : envIsInAttack e = false) (hlevel : fle e.level fSilence = true) :
    envPhase e = .idle := by
  simp [envPhase, hattack, hlevel]

/-- An envelope with target +0.0 is out of the attack (41 R166). -/
theorem not_envIsInAttack_of_target_zero {e : Envelope} (h : e.target = f0) : envIsInAttack e = false := by
  rw [envIsInAttack, h]
  decide

/-! ## The level in release -/

/-- What lies between 0 and a finite value is finite. -/
theorem fisFinite_of_mem {x y : F32} (hx : fisFinite x = true) (h : forder y ∈ Set.Icc 0 (forder x)) :
    fisFinite y = true := by
  obtain ⟨h0, hle⟩ := h
  rw [fisFinite_iff] at hx ⊢
  omega

/-- With target +0.0 and a multiplier of [0, 1), the next level lies between 0 and the present one (41 R168). -/
theorem forder_envLevel_mem (k : Key) {e : Envelope} (ht : e.target = f0) (hm0 : 0 ≤ forder e.multiplier)
    (hm1 : forder e.multiplier < forder f1) (hfin : fisFinite e.level = true) (hl0 : 0 ≤ forder e.level) :
    forder (envLevel k e) ∈ Set.Icc 0 (forder e.level) := by
  rw [envLevel, ht, fsub]
  have difference : forder (fadd (0 :: k) e.level (fneg f0)) ∈ Set.Icc 0 (forder e.level) :=
    forder_fadd_zero (0 :: k) hfin (by decide : fmag (fneg f0) = 0) ▸ forder_fflush_mem hl0
  have product := forder_fmul_mem (1 :: k) hm0 hm1 (fisFinite_of_mem hfin difference) difference.1
  have productFin := fisFinite_of_mem (fisFinite_of_mem hfin difference) product
  rw [forder_fadd_zero (2 :: k) productFin (by decide)]
  obtain ⟨l0, lle⟩ := forder_fflush_mem product.1
  exact ⟨l0, lle.trans (product.2.trans difference.2)⟩

end Sys2Proof.Machine
end

section
/-!
PROOFS. The statements of the family of 41_envelope.md.
-/

namespace Sys2Proof.Proofs

open Sys2Proof.Machine

/-- Settles O48: the difference from +0.0, the product and the sum with +0.0 each stay between 0 and the level. -/
theorem releaseNeverRaisesLevel : Obligations.ReleaseNeverRaisesLevel := by
  intro k e hset htarget hm0 hm1 hfin hl0
  refine ⟨_, _, envNext_ok.2 ⟨hset, rfl⟩, ?_⟩
  obtain ⟨-, -, m0⟩ := fle_iff.1 hm0
  obtain ⟨-, -, m1⟩ := flt_iff.1 hm1
  obtain ⟨-, hlevel, l0⟩ := fle_iff.1 hl0
  have level := forder_envLevel_mem (0 :: k) htarget m0 m1 hfin l0
  have notNaN := not_fisNaN_of_fisFinite (fisFinite_of_mem hfin level)
  exact ⟨fle_iff.2 ⟨by decide, notNaN, level.1⟩, fle_iff.2 ⟨notNaN, hlevel, level.2⟩⟩

/-- Settles O47: the step that completes is the one the claim writes out. -/
theorem envelopeHandsOffAboveThreshold : Obligations.EnvelopeHandsOffAboveThreshold := by
  intro k e hset
  have h : envNext k e = .ok (envStep k e) := envNext_ok.2 ⟨hset, rfl⟩
  exact ⟨_, _, h, envNext_envStep h⟩

/-- Settles O49, by the target each operation writes. -/
theorem envelopePhaseTransitions : Obligations.EnvelopePhaseTransitions := by
  intro k e
  have reset : envPhase (envReset e) = .idle :=
    envPhase_eq_idle (not_envIsInAttack_of_target_zero rfl) (by decide : fle f0 fSilence = true)
  have release : envPhase (envRelease e) ≠ .attack := fun h =>
    Bool.false_ne_true ((not_envIsInAttack_of_target_zero rfl).symm.trans (envPhase_eq_attack.1 h))
  have attack (hset : e.levelSet = true) : ∃ u, envAttack k e = .ok u ∧ envPhase u = .attack :=
    ⟨_, envAttack_ok.2 ⟨hset, rfl⟩, envPhase_eq_attack.2 (by decide : fle fAttackTarget fAttackTarget = true)⟩
  exact ⟨reset, release, rfl, attack⟩

end Sys2Proof.Proofs
end

section
/-!
SUPPORT. A reset filter: a product with +0.0 is a zero, and adding a zero to +0.0 gives +0.0 (00_scope.md R8;
42_filter.md R181, R183).
-/

namespace Sys2Proof.Machine

/-! ## Sums and products with +0.0 -/

/-- A finite value less a zero is finite. -/
theorem fisFinite_fsub_zero (k : Key) {x : F32} (hx : fisFinite x = true) : fisFinite (fsub k x f0) = true := by
  rw [fisFinite_iff, fsub, forder_fadd_zero k hx (by decide), ← fisFinite_iff]
  exact fisFinite_fflush hx

/-- The product of +0.0 and a finite value is the zero of that value's sign. -/
theorem fmul_zero_of_finite (k : Key) {x : F32} (hx : fisFinite x = true) :
    fmul k f0 x = fzero (fsign (fflush x)) := by
  have zero : fflush f0 = f0 := fflush_fzero false
  have units : fixedMag f0 = 0 := by decide
  have sign : fsign f0 = false := by decide
  have rounded : roundMag 0 149 = 0 := by decide
  rw [fmul_of_finite k (by decide) hx, zero, units, sign, Nat.zero_mul, rounded, Bool.false_bne]
  exact fflush_fzero _

/-- The sum of +0.0 and a zero of either sign is +0.0. -/
@[simp] theorem fadd_zero_fzero (k : Key) (neg : Bool) : fadd k f0 (fzero neg) = f0 := by
  cases neg <;> exact fadd_eq (by decide +kernel) (by decide) k

@[simp] theorem fsub_zero_zero (k : Key) : fsub k f0 f0 = f0 := fadd_zero_fzero k true

@[simp] theorem fmul_zero_zero (k : Key) : fmul k f0 f0 = f0 := fmul_zero_of_finite k (by decide)

@[simp] theorem fmul_two_zero (k : Key) : fmul k f2 f0 = f0 := fmul_eq (by decide +kernel) (by decide) k

/-! ## The step of a reset filter -/

@[simp] theorem filterSet_filterReset (f : Filter) : filterSet (filterReset f) = true := rfl

/-- Every term of a reset filter's step is a product with +0.0, so its output is +0.0 and its integrators stay so. -/
theorem filterStep_filterReset (k : Key) {x : F32} (f : Filter) (hx : fisFinite x = true) :
    filterStep k x (filterReset f) = (f0, filterReset f) := by
  have product (j : Key) := fmul_zero_of_finite j (fisFinite_fsub_zero (0 :: k) hx)
  simp [filterStep, filterReset, product]

end Sys2Proof.Machine
end

section
/-!
PROOFS. The statement of the family of 42_filter.md.
-/

namespace Sys2Proof.Proofs

open Sys2Proof.Machine

/-- Settles O46: a filter whose fields hold values takes the step of R183, and a reset filter's step changes nothing. -/
theorem resetFilterIsSilent : Obligations.ResetFilterIsSilent := by
  refine ⟨fun k x f hset => ?_, fun k x f hx => ?_⟩
  · have completes : filterRender k x f = .ok (filterStep k x f) := filterRender_ok.2 ⟨hset, rfl⟩
    exact ⟨_, _, completes, filterRender_filterStep completes⟩
  · exact filterRender_ok.2 ⟨filterSet_filterReset f, filterStep_filterReset k f hx⟩

end Sys2Proof.Proofs
end

section
/-!
SUPPORT. The LFO tick in the terms of the claims: the registers it leaves, the gains of a pan position, the tuning of
a filter, and what it leaves of an active voice (42_filter.md R182; 43_voice.md R205, R206; 46_render.md R290, R292,
R294).
-/

namespace Sys2Proof.Machine

open Sys2Proof.Claims

/-! ## The engine registers -/

theorem lfoShape_shapeOf (k : Key) (w : Int) (phi : F32) : ShapeOf w phi (lfoShape k w phi) :=
  ⟨([0 :: k, 1 :: k, 2 :: k, 0 :: k].getD · []), rfl⟩

theorem tickRegisters_tickedRegisters (k : Key) (s : State) (vs : VoiceFile) :
    TickedRegisters s { tickRegisters k s with voices := vs } :=
  ⟨rfl, ([0 :: 0 :: k, 1 :: 0 :: k, 0 :: 2 :: k, 1 :: 2 :: k, 2 :: 2 :: k, 0 :: 3 :: k, 1 :: 3 :: k, 2 :: 3 :: k,
      0 :: 4 :: k, 1 :: 4 :: k, 2 :: 4 :: k, 3 :: 4 :: k, 4 :: 4 :: k].getD · []),
    _, _, rfl, rfl, lfoShape_shapeOf (1 :: k) _ _, rfl, rfl, rfl⟩

/-- A tick reads the phase and the smoothed filter modulation before it writes them, so of those set-bits it changes
none (46 R294). -/
theorem tickRegisters_written_of_set {s : State} (h : tickSet s.written = true) (k : Key) :
    (tickRegisters k s).written = { s.written with lfoStep := true, vibratoMod := true, pwm := true } := by
  simp only [tickSet, Bool.and_eq_true] at h
  simp [h]

/-! ## Gains, glide and filter -/

theorem voiceGains_gainsOf (k : Key) (v : Voice) : GainsOf (voiceGains k v) := ⟨⟨_, _, rfl⟩, ⟨_, _, rfl⟩⟩

theorem filterUpdate_filterTuned (k : Key) (cutoff q : F32) (f : Filter) :
    FilterTuned cutoff q f (filterUpdate k cutoff q f) := ⟨fun n => n :: k, rfl⟩

/-- Where both hold values already, writing the period and the pan position changes no set-bit. -/
theorem writePanning_writePeriod_of_set {v : Voice} (hperiod : v.written.period = true)
    (hpanning : v.written.panning = true) (x y : F32) :
    writePanning y (writePeriod x v) = { v with period := x, panning := y } := by
  rw [writePeriod, ← hperiod, writePanning, ← hpanning]

theorem ite_writeFilterMod (fp : Bool) (x : F32) (v : Voice) :
    (if fp then writeFilterMod x v else v) = { v with
      filterMod := if fp then x else v.filterMod
      written := { v.written with filterMod := fp || v.written.filterMod } } := by
  cases fp <;> rfl

/-- A voice whose period and pan position have moved one glide step toward their targets (43 R205, R206). -/
def glidedVoice (k : Key) (v : Voice) : Voice :=
  voiceGains (2 :: k) { v with
    period := glideStep (0 :: k) v.glideRate v.period v.target
    panning := glideStep (1 :: k) v.glideRate v.panning v.targetPanning }

/-- The filter envelope `fe` and the filter `f` are those that a tick leaves of the voice `v`, once it holds the tick's
`filterMod` (42 R182; 43 R206). -/
def TickedFilter (v : Voice) (fe : Envelope) (f : Filter) : Prop :=
  ∃ k : Nat → Key, ∃ fenv, EnvStep v.filterEnv fenv fe ∧
    FilterTuned
      (fclamp (fdiv (k 3) (fmul (k 2) v.cutoff
        (Config.exp (fadd (k 1) v.filterMod (fmul (k 0) v.filterEnvDepth fenv)))) v.pitchBend) f30 f20000)
      v.filterQ v.filter f

theorem voiceUpdateFilter_tickedFilter {k : Key} {v u : Voice} (h : voiceUpdateFilter k v = .ok u) :
    TickedFilter v u.filterEnv u.filter ∧ u = { v with filterEnv := u.filterEnv, filter := u.filter } := by
  obtain ⟨fenv, henv, -, -, -, -, -, hfilter, hu⟩ := voiceUpdateFilter_ok h
  refine ⟨⟨fun n => (n + 1) :: k, fenv, envNext_envStep henv, ?_⟩, hu⟩
  rw [hfilter]
  exact filterUpdate_filterTuned ..

/-- `VOICE.UPDATELFO` leaves a glided voice but for the filter envelope and the filter, which it ticks when there is a
filter (43 R206). -/
theorem voiceUpdateLfo_glidedVoice {fp : Bool} {k : Key} {v u : Voice} (h : voiceUpdateLfo fp k v = .ok u) :
    (if fp then TickedFilter v u.filterEnv u.filter else u.filterEnv = v.filterEnv ∧ u.filter = v.filter) ∧
      u = { glidedVoice k v with filterEnv := u.filterEnv, filter := u.filter } := by
  obtain ⟨hperiod, -, -, hpanning, -, w, hw, h⟩ := voiceUpdateLfo_ok h
  rw [writePanning_writePeriod_of_set hperiod hpanning] at hw
  obtain rfl : w = glidedVoice k v := hw
  cases fp with
  | true => exact voiceUpdateFilter_tickedFilter h
  | false =>
    obtain rfl : u = glidedVoice k v := h
    exact ⟨⟨rfl, rfl⟩, rfl⟩

/-! ## An active voice -/

theorem tickVoice_tickedVoice {j k : Key} {s : State} {vs : VoiceFile} {v u : Voice}
    (h : tickVoice (tickRegisters j s) k v = .ok u) (hactive : voiceIsActive v = true) :
    TickedVoice s { tickRegisters j s with voices := vs } v u := by
  obtain ⟨_, w, rfl, hlfo, hperiods⟩ := (if_pos hactive).mp (tickVoice_ok h).2
  obtain ⟨-, -, rfl⟩ := updatePeriod_ok.1 hperiods
  rw [ite_writeFilterMod, tickRegisters_params] at hlfo
  obtain ⟨hfilter, hw⟩ := voiceUpdateLfo_glidedVoice hlfo
  rw [hw]
  exact {
    period := ⟨fun n => n :: _, rfl⟩
    panning := ⟨fun n => n :: _, rfl⟩
    gains := voiceGains_gainsOf ..
    osc1 := ⟨_, rfl⟩
    osc2 := ⟨_, rfl⟩
    filter := by
      cases hfp : s.params.filterPresent <;> rw [hfp] at hfilter <;> exact ⟨rfl, hfilter⟩
    unwritten := rfl }

end Sys2Proof.Machine
end

section
/-!
SUPPORT. Sums and quotients of integers in binary32, clamping to -1.0 and 1.0, and the pan position, which is the
clamped quotient of the integers `note - 60` and 24 (00_scope.md R8, R13; 43_voice.md R204).
-/

namespace Sys2Proof.Machine

/-! ## Rounding -/

/-- No rounding goes above infinity. -/
theorem roundMag_le_infinity (n k : Nat) : roundMag n k ≤ 0x7F800000 := by
  rw [roundMag_eq]
  exact Nat.min_le_right ..

/-- What is at least a finite magnitude rounds to at least that magnitude. -/
theorem le_roundMag {n k m : Nat} (hm : m < 0x7F800000) (h : magUnits m * 2 ^ k ≤ n) : m ≤ roundMag n k := by
  by_contra hlt
  have below := Nat.mul_lt_mul_of_pos_right (magUnits_strictMono (Nat.lt_of_not_le hlt)) (Nat.two_pow_pos k)
  have nearest := (roundMag_nearest ((roundMag_lt_iff n k).1 (by omega)) m).1
  omega

/-! ## Sums and quotients of integers -/

theorem fflush_fofInt {z : Int} (hz : z.natAbs ≤ 2 ^ 24) : fflush (fofInt z) = fofInt z :=
  fflush_of_scaled (by omega) (fofInt_exact hz).2.2

/-- The sum of integers is exact when they and it have at most 24 bits (00 R8, R13). -/
theorem fadd_fofInt (k : Key) {a b : Int} (ha : a.natAbs ≤ 2 ^ 24) (hb : b.natAbs ≤ 2 ^ 24)
    (hab : (a + b).natAbs ≤ 2 ^ 24) : fadd k (fofInt a) (fofInt b) = fofInt (a + b) := by
  obtain ⟨afin, asign, amag⟩ := fofInt_exact ha
  obtain ⟨bfin, bsign, bmag⟩ := fofInt_exact hb
  have sum : fixedVal (fofInt a) + fixedVal (fofInt b) = (a + b) * (2 ^ 149 : Nat) := by
    rw [fixedVal_eq_mul asign amag, fixedVal_eq_mul bsign bmag, Int.add_mul]
  rw [fadd_of_finite k afin bfin, fflush_fofInt ha, fflush_fofInt hb, faddFinite, sum, asign, bsign]
  by_cases hzero : a + b = 0
  · have signs : (decide (a < 0) && decide (b < 0)) = false := by simp; omega
    rw [if_pos (by rw [hzero, Int.zero_mul]), signs, hzero]
    decide
  · have sign : decide ((a + b) * (2 ^ 149 : Nat) < 0) = decide (a + b < 0) := by
      rw [decide_eq_decide]
      omega
    have mag : ((a + b) * (2 ^ 149 : Nat)).natAbs = (a + b).natAbs <<< 149 := by
      rw [Int.natAbs_mul, Int.natAbs_natCast, Nat.shiftLeft_eq]
    rw [if_neg (by omega), sign, mag]
    exact fflush_fofInt hab

/-- The quotient of integers, the divisor positive, is their magnitudes' quotient, rounded, with the dividend's sign. -/
theorem fdiv_fofInt (k : Key) {a b : Int} (ha : a.natAbs ≤ 2 ^ 24) (hb : b.natAbs ≤ 2 ^ 24) (hpos : 0 < b) :
    fdiv k (fofInt a) (fofInt b) =
      fflush (fmk (decide (a < 0)) (divMag (a.natAbs * 2 ^ 149) (b.natAbs * 2 ^ 149))) := by
  obtain ⟨afin, asign, amag⟩ := fofInt_exact ha
  obtain ⟨bfin, bsign, bmag⟩ := fofInt_exact hb
  have bzero : fisZero (fofInt b) = false := by
    rw [fisZero, beq_eq_false_iff_ne, ne_eq, ← magUnits_eq_zero, ← fixedMag_eq, bmag]
    omega
  have bpos : fsign (fofInt b) = false := bsign.trans (decide_eq_false (by omega))
  rw [fdiv_of_finite k afin bfin (fflush_fofInt ha) (fflush_fofInt hb) bzero, asign, bpos, amag, bmag, Bool.bne_false]

/-- A quotient of magnitudes that is at least 1 rounds to at least 1.0. -/
theorem one_le_divMag {a b : Nat} (hb : 0 < b) (h : b ≤ a) : 0x3F800000 ≤ divMag a b := by
  have one : magUnits 0x3F800000 = 2 ^ 149 := by decide +kernel
  have quotient : 2 ^ 151 ≤ a <<< 151 / b := by
    rw [Nat.le_div_iff_mul_le hb, Nat.shiftLeft_eq, Nat.mul_comm]
    exact Nat.mul_le_mul_right _ h
  refine le_roundMag (by omega) ?_
  rw [one]
  omega

/-- Flushing keeps the place of a value built from a magnitude of at least the least normal one. -/
theorem forder_fflush_fmk (neg : Bool) {m : Nat} (hnormal : 2 ^ 23 ≤ m) (hm : m < 2 ^ 31) :
    forder (fflush (fmk neg m)) = if neg then -(m : Int) else m := by
  have least : magUnits (2 ^ 23) = 2 ^ 23 := by decide +kernel
  have units : 2 ^ 23 ≤ fixedMag (fmk neg m) := by
    rw [fixedMag_fmk neg hm, ← least]
    exact magUnits_strictMono.monotone hnormal
  rw [fflush_eq_self (.inr units), forder_fmk neg hm]

section
variable {a b : Int} (k : Key) (ha : a.natAbs ≤ 2 ^ 24) (hb : b.natAbs ≤ 2 ^ 24) (hpos : 0 < b)
include ha hb hpos

/-- A quotient of integers is no NaN when the divisor is positive. -/
theorem not_fisNaN_fdiv_fofInt : fisNaN (fdiv k (fofInt a) (fofInt b)) = false := by
  have bound := roundMag_le_infinity
  rw [fdiv_fofInt k ha hb hpos, fisNaN_fflush, fisNaN, divMag, fmag_fmk _ ((bound ..).trans_lt (by omega)),
    decide_eq_false_iff_not, Nat.not_lt]
  exact bound ..

/-- The quotient of integers at least as far from 0 as the divisor is at least 1.0 from 0, on the dividend's side. -/
theorem forder_fdiv_fofInt (h : b.natAbs ≤ a.natAbs) :
    ∃ m : Nat, 0x3F800000 ≤ m ∧ forder (fdiv k (fofInt a) (fofInt b)) = if a < 0 then -(m : Int) else m := by
  have one := one_le_divMag (a := a.natAbs * 2 ^ 149) (b := b.natAbs * 2 ^ 149) (by omega) (by omega)
  have bound : divMag (a.natAbs * 2 ^ 149) (b.natAbs * 2 ^ 149) ≤ 0x7F800000 := roundMag_le_infinity ..
  refine ⟨_, one, ?_⟩
  rw [fdiv_fofInt k ha hb hpos, forder_fflush_fmk _ (by omega) (by omega)]
  simp only [decide_eq_true_eq]

end

/-! ## Clamping -/

/-- The sign bit of a value other than the zeros says whether it stands below them. -/
theorem fsign_of_forder_ne_zero {x : F32} (h : forder x ≠ 0) : fsign x = decide (forder x < 0) := by
  unfold forder at h ⊢
  split at h <;> rename_i hs
  · rw [if_pos hs, hs, eq_comm, decide_eq_true_eq]
    omega
  · rw [if_neg hs, eq_false_of_ne_true hs, eq_comm, decide_eq_false_iff_not]
    omega

/-- Two values at one place of the order, but for the zeros, are the same value. -/
theorem eq_of_forder_eq {x y : F32} (hy : forder y ≠ 0) (h : forder x = forder y) : x = y := by
  have mag : fmag x = fmag y := by rw [← natAbs_forder, h, natAbs_forder]
  have sign : fsign x = fsign y := by
    rw [fsign_of_forder_ne_zero (h ▸ hy), h, fsign_of_forder_ne_zero hy]
  rw [← fmk_fsign_fmag x, sign, mag, fmk_fsign_fmag]

section
variable {x : F32} (hx : fisNaN x = false)
include hx

/-- What is at most -1.0 is clamped to -1.0. -/
theorem fclamp_of_le_neg_one (h : forder x ≤ forder fNeg1) : fclamp x fNeg1 f1 = fNeg1 := by
  have lower : fmax x fNeg1 = fNeg1 := by
    rcases h.lt_or_eq with hlt | heq
    · exact if_pos (flt_iff.2 ⟨hx, by decide, hlt⟩)
    · rw [eq_of_forder_eq (by decide) heq]
      rfl
  rw [fclamp, lower]
  decide

/-- What is at least 1.0 is clamped to 1.0. -/
theorem fclamp_of_one_le (h : forder f1 ≤ forder x) : fclamp x fNeg1 f1 = f1 := by
  have order : forder fNeg1 < forder f1 := by decide
  have lower : fmax x fNeg1 = x := if_neg fun hlt => absurd (flt_iff.1 hlt).2.2 (by omega)
  rw [fclamp, lower]
  rcases h.lt_or_eq with hlt | heq
  · exact if_pos (flt_iff.2 ⟨by decide, hx, hlt⟩)
  · rw [← eq_of_forder_eq (by decide) heq.symm]
    exact ite_self _

/-- Clamping to -1.0 and 1.0 gives a value from -1.0 to 1.0. -/
theorem fclamp_mem : fle fNeg1 (fclamp x fNeg1 f1) = true ∧ fle (fclamp x fNeg1 f1) f1 = true := by
  rcases le_total (forder x) (forder fNeg1) with hlow | hlow
  · rw [fclamp_of_le_neg_one hx hlow]
    decide
  rcases le_total (forder f1) (forder x) with hhigh | hhigh
  · rw [fclamp_of_one_le hx hhigh]
    decide
  have lower : fmax x fNeg1 = x := if_neg fun hlt => absurd (flt_iff.1 hlt).2.2 (by omega)
  have upper : fmin x f1 = x := if_neg fun hlt => absurd (flt_iff.1 hlt).2.2 (by omega)
  rw [fclamp, lower, upper]
  exact ⟨fle_iff.2 ⟨by decide, hx, hlow⟩, fle_iff.2 ⟨hx, by decide, hhigh⟩⟩

end

/-! ## The pan position -/

/-- `PAN_OF(note)` is the clamped quotient of `note - 60`, which is exact, and 24 (43 R204). -/
theorem panOf_eq (k : Key) {n : Nat} (hn : n ≤ 127) :
    panOf k n = fclamp (fdiv (1 :: k) (fofInt (n - 60)) (fofInt 24)) fNeg1 f1 := by
  have h60 : fneg f60 = fofInt (-60) := by decide +kernel
  have h24 : f24 = fofInt 24 := by decide +kernel
  rw [panOf, fsub, h60, fadd_fofInt _ (by omega) (by omega) (by omega), h24]
  rfl

end Sys2Proof.Machine
end

section
/-!
PROOFS. The statements of the family of 43_voice.md.
-/

namespace Sys2Proof.Proofs

open Sys2Proof.Machine

/-- Settles O43: a completed tick has written the registers and then ticked each voice by itself, from them. -/
theorem tickGlidesActiveVoices : Obligations.TickGlidesActiveVoices := by
  intro k s t h
  obtain ⟨hset, vs, hvoices, rfl⟩ := lfoTick_ok h
  refine ⟨tickRegisters_tickedRegisters .., ?_, ?_⟩
  · rintro i _ _ rfl rfl
    split
    next hactive => exact tickVoice_tickedVoice (hvoices i) hactive
    next hinactive => exact (if_neg hinactive).mp (tickVoice_ok (hvoices i)).2
  · rw [← tickRegisters_written_of_set hset (8 :: k)]
    rfl

/-- Settles O27. The quotient `(note - 60) / 24` is no NaN, so the clamp keeps it in [-1, 1]; from 24 semitones off the
centre on it is at least 1.0 from 0, on the side of `note - 60`. -/
theorem panPositionInRange : Obligations.PanPositionInRange := by
  intro k n
  have hn : n.toNat ≤ 127 := Nat.le_of_lt_succ n.isLt
  have range : ((n.toNat : Int) - 60).natAbs ≤ 2 ^ 24 := by omega
  have number := not_fisNaN_fdiv_fofInt (1 :: k) range (by decide : Int.natAbs 24 ≤ 2 ^ 24) (by decide)
  have far := forder_fdiv_fofInt (1 :: k) range (by decide : Int.natAbs 24 ≤ 2 ^ 24) (by decide)
  rw [panOf_eq k hn]
  refine ⟨(fclamp_mem number).1, (fclamp_mem number).2, fun hlow => ?_, fun hcentre => ?_, fun hhigh => ?_⟩
  · obtain ⟨m, hm, hq⟩ := far (by omega)
    refine fclamp_of_le_neg_one number ?_
    rw [hq, if_pos (by omega), show forder fNeg1 = -0x3F800000 by decide]
    omega
  · rw [hcentre, show fdiv (1 :: k) (fofInt ((60 : Nat) - 60)) (fofInt 24) = f0 from
      fdiv_eq (by decide +kernel) (by decide) _]
    decide
  · obtain ⟨m, hm, hq⟩ := far (by omega)
    refine fclamp_of_one_le number ?_
    rw [hq, if_neg (by omega), show forder f1 = 0x3F800000 by decide]
    omega

end Sys2Proof.Proofs
end

section
/-!
SUPPORT. The dispatch of 44_events.md R230 field by field, and which events add a notification (44 R231, R245).
-/

namespace Sys2Proof.Machine

open Sys2Proof.Claims

/-! ## The dispatch of R230 -/

/-- A test of the status bits of byte 0 is a test of its status nibble (30 R100). -/
theorem status_eq_iff (b : Byte) (x : BitVec 4) : b &&& 0xF0#8 = x ++ 0#4 ↔ statusNibble b = x := by
  have mask : b &&& 0xF0#8 = statusNibble b ++ 0#4 := by revert b; decide
  rw [mask]
  exact ⟨fun h => by simpa using congrArg statusNibble h, fun h => by rw [h]⟩

/-- A test of a masked data byte is a test of its data bits (30 R102). -/
theorem data_eq_iff (b : Byte) (x : BitVec 7) : b &&& 0x7F#8 = 0#1 ++ x ↔ dataBits b = x :=
  ⟨fun h => (dataBits_mask b).symm.trans ((congrArg dataBits h).trans (dataBits_append x)),
    fun h => by rw [← h, zero_append_dataBits]; rfl⟩

theorem data_toNat (b : Byte) : (b &&& 0x7F#8).toNat = (dataBits b).toNat := by
  revert b; decide

theorem data_setWidth (b : Byte) : (b &&& 0x7F#8).setWidth 7 = dataBits b := by
  revert b; decide

/-- The value of a pitch-bend record (30 R106). -/
theorem bend_toNat (d1 d2 : BitVec 7) : (d2 ++ d1).toNat = d1.toNat + 128 * d2.toNat := by
  rw [BitVec.toNat_append, ← Nat.shiftLeft_add_eq_or_of_lt d1.isLt, Nat.shiftLeft_eq]
  omega

/-- R230 acts on a record as the row that reads its fields: its tests of bytes are tests of the fields, and in each row
they come out as the row says (44 R230). -/
theorem eventApply_record (b0 b1 b2 : Byte) (s : State) :
    eventApply [b0, b1, b2] s = exec (decodeRecord b0 b1 b2) s := by
  have hC := status_eq_iff b0 0xC; have h8 := status_eq_iff b0 0x8; have h9 := status_eq_iff b0 0x9
  have hE := status_eq_iff b0 0xE; have hB := status_eq_iff b0 0xB
  have h40 := data_eq_iff b1 0x40; have h01 := data_eq_iff b1 0x01
  simp only [BitVec.reduceAppend] at hC h8 h9 hE hB h40 h01
  have row := reads_decodeFields (statusNibble b0) (channelNibble b0) (dataBits b1) (dataBits b2)
  have long : ¬ 3 < [b0, b1, b2].length := by simp
  unfold eventApply decodeRecord
  simp only [List.getD_cons_zero, List.getD_cons_succ, if_neg long]
  simp only [BitVec.ofNat_eq_ofNat, hC, h8, h9, hE, hB, h40, h01, data_toNat, data_setWidth]
  generalize decodeFields _ _ _ _ = i at row
  generalize statusNibble b0 = st at row
  generalize channelNibble b0 = low at row
  generalize dataBits b1 = d1 at row
  generalize dataBits b2 = d2 at row
  clear hC h8 h9 hE hB h40 h01
  cases row with
  | noteOn hvel =>
    have pos : 0 < d2.toNat := Nat.pos_of_ne_zero fun h => hvel (BitVec.eq_of_toNat_eq h)
    exact (if_pos pos : (if 0 < d2.toNat then _ else _) = _)
  | ccAllNotesOff hc =>
    obtain ⟨hmod, hsus⟩ := allNotesOff_controller hc
    have hc : 120 ≤ d1.toNat := BitVec.le_def.1 hc
    simp [exec, execCcAllNotesOff, hmod, hsus, hc]
  | ccOther hmod hsus hoff =>
    have hoff : ¬ 120 ≤ d1.toNat := fun h => hoff (BitVec.le_def.2 h)
    simp [exec, execCcOther, hmod, hsus, hoff]
  | pitchBend =>
    simp [exec, execPitchBend, bendRatio, bendValue, bend_toNat, fBendK]
  | dataFirst hlow => simp [exec, execDataFirst, ne_of_lt_eight hlow]
  | _ => rfl

/-! ## Notifications -/

/-- An operation of an event that keeps the notifications where it completes keeps them where it halts (log 12). -/
theorem finish_notifications {s t : State} {r : Except Halt State} (h : finish s r = .next t)
    (hr : r = .ok t → t.notifications = s.notifications) : t.notifications = s.notifications := by
  rcases finish_next h with hok | ⟨-, rfl⟩
  · exact hr hok
  · rfl

/-- Of the events only a program change notifies (44 R231, R245). -/
theorem exec_event_notifications {i : Instr} {s t : State} (hi : encodeCommand i = none) (h : exec i s = .next t) :
    t.notifications = s.notifications ∨
      ∃ ch prog d2, i = .programChange ch prog d2 ∧ t = notify (.programChange prog) s := by
  cases i <;> simp only [encodeCommand, reduceCtorEq] at hi
  case programChange ch prog d2 =>
    cases h
    exact .inr ⟨ch, prog, d2, rfl, rfl⟩
  case noteOff | noteOnV0 =>
    refine .inl (finish_notifications h fun hok => ?_)
    obtain ⟨_, _, _, rfl⟩ := noteOffOp_ok hok
    rfl
  case noteOn =>
    refine .inl (finish_notifications h fun hok => ?_)
    obtain ⟨_, rfl⟩ := noteOnOp_ok hok
    rfl
  case ccSustain =>
    refine .inl (finish_notifications h fun hok => ?_)
    obtain ⟨_, _, _, rfl⟩ := sustainOp_ok hok
    rfl
  all_goals cases h; exact .inl rfl

theorem applyEvent_notifications {bytes : List Byte} {s t : State} (h : applyEvent bytes s = .next t) :
    t.notifications = s.notifications ∨
      ∃ ch prog d2, decode bytes = .ok (.programChange ch prog d2) ∧
        t.notifications = s.notifications ++ [.programChange prog] := by
  unfold applyEvent at h
  split at h
  next i hdecode =>
    obtain ⟨u, hu, rfl⟩ := mapNext_next.1 h
    refine (exec_event_notifications (encodeCommand_of_decode hdecode) hu).imp id ?_
    rintro ⟨ch, prog, d2, rfl, rfl⟩
    exact ⟨ch, prog, d2, hdecode, rfl⟩
  next =>
    cases h
    exact .inl rfl

/-! ## All notes off -/

/-- `VOICE.RESET` leaves a silenced voice: the gains of the centre are both `Sin(PI_OVER_4)` (10 R61; 43 R201, R205). -/
theorem voiceReset_eq_silencedVoice (fp : Bool) (k : Key) (v : Voice) : voiceReset fp k v = silencedVoice fp v := by
  simp only [voiceReset, voiceGains, writePan, fsub_one_zero, fadd_one_zero, fmul_piOver4_one]
  cases fp <;> rfl

end Sys2Proof.Machine
end

section
/-!
SUPPORT. The procedures of a note-off where the registers hold values (10_state.md R61): no read stops them, and no
set-bit they write changes. The release scan, the pop of the mono queue and the retuning of voice 0 in the terms of the
claims (43_voice.md R203; 44_events.md R234, R240; 45_allocation.md R266 to R268).
-/

namespace Sys2Proof.Machine

open Sys2Proof.Claims

/-! ## Registers that hold values -/

theorem registersSet_iff {s : State} :
    registersSet s = true ↔
      s.written = EngineWritten.all ∧ ∀ i, voiceSet s.params.filterPresent (getVoice s.voices i) = true := by
  rw [registersSet, Bool.and_eq_true, decide_eq_true_eq, voiceList_all]

theorem envSet_iff {e : Envelope} :
    envSet e = true ↔ e.levelSet = true ∧ e.targetSet = true ∧ e.multiplierSet = true := by
  simp only [envSet, Bool.and_eq_true, and_assoc]

theorem voiceSet_iff {fp : Bool} {v : Voice} :
    voiceSet fp v = true ↔
      v.written.note = true ∧ v.written.panning = true ∧ v.written.targetPanning = true ∧ v.written.gains = true ∧
        v.written.saw = true ∧ v.osc1.cycleSet = true ∧ v.osc2.cycleSet = true ∧ envSet v.env = true ∧
        (fp = true → envSet v.filterEnv = true ∧ filterSet v.filter = true) := by
  cases fp <;> simp [voiceSet, and_assoc]

theorem note_set_of_voiceSet {fp : Bool} {v : Voice} (h : voiceSet fp v = true) : v.written.note = true :=
  (voiceSet_iff.1 h).1

theorem isMono_iff {p : Snapshot} : isMono p = true ↔ p.numVoices = 1 := by simp [isMono]

/-! ## Writes that change no set-bit -/

theorem writeNote_of_set {v : Voice} (h : v.written.note = true) (n : Int) : writeNote n v = { v with note := n } := by
  rw [writeNote, ← h]

theorem envRelease_of_set {e : Envelope} (h : envSet e = true) : envRelease e = releasedEnv e := by
  obtain ⟨-, htarget, hmultiplier⟩ := envSet_iff.1 h
  rw [envRelease, releasedEnv, htarget, hmultiplier]
  rfl

theorem voiceRelease_of_set {fp : Bool} {v : Voice} (h : voiceSet fp v = true) :
    voiceRelease fp v = releasedVoice fp v := by
  obtain ⟨-, -, -, -, -, -, -, henv, hfilter⟩ := voiceSet_iff.1 h
  cases fp with
  | true =>
    rw [voiceRelease, envRelease_of_set henv, envRelease_of_set (hfilter rfl).1]
    rfl
  | false =>
    rw [voiceRelease, envRelease_of_set henv]
    rfl

/-- The release scan of a voice (44 R234). -/
theorem releaseMatching_of_set {fp : Bool} {v : Voice} (h : voiceSet fp v = true) (pedal : Bool) (n : Int) :
    releaseMatching fp pedal n v = scannedVoice fp pedal n v := by
  have hnote := note_set_of_voiceSet h
  unfold releaseMatching scannedVoice
  rw [voiceRelease_of_set h, writeNote_of_set hnote, writeNote_of_set (v := releasedVoice fp v) hnote]

/-- A push into a slot (45 R267). -/
theorem voiceRelease_writeNote_of_set {fp : Bool} {slot : Voice} (h : voiceSet fp slot = true) (below : Voice) :
    voiceRelease fp (writeNote below.note slot) = pushedSlot fp below slot := by
  rw [writeNote_of_set (note_set_of_voiceSet h), voiceRelease_of_set (v := { slot with note := below.note }) h]
  rfl

/-! ## Events that release a note -/

/-- The state in which an event that releases `n` runs `NOTE_OFF_OP`: a pedal-up has put the pedal up (44 R240). -/
def releasing (n : Int) (s : State) : State := { s with sustainPedalPressed := pedalSeen n s }

/-- An event that releases a note runs `NOTE_OFF_OP` for it, with the pedal as the scan sees it (44 R233, R240). -/
theorem exec_releasedNote {i : Instr} {n : Int} {s : State} (hi : releasedNote i = some n)
    (hpedal : s.written.sustainPedalPressed = true) :
    exec i s = finish s (noteOffOp (stepKey s) n (releasing n s)) := by
  have number (d : BitVec 7) : releasing d.toNat s = s := by
    have seen : pedalSeen d.toNat s = s.sustainPedalPressed := if_neg (by omega)
    rw [releasing, seen]
  cases i <;> simp only [releasedNote, reduceCtorEq] at hi
  case noteOff ch m vel =>
    cases hi
    rw [number]
    rfl
  case noteOnV0 ch m =>
    cases hi
    rw [number]
    rfl
  case ccSustain ch val =>
    obtain ⟨hval, rfl⟩ : val.toNat < 64 ∧ -1 = n := by simpa using hi
    have up : pedalPressed val = false := decide_eq_false (by unfold dataValue; omega)
    have written : writePedal false s = releasing (-1) s := by
      rw [writePedal, ← hpedal]
      rfl
    simp only [exec, execCcSustain, sustainOp, up, written]
    rfl

/-! ## The mono queue -/

theorem indexedVoices_tail_eq_ofFn (vs : VoiceFile) :
    (indexedVoices vs).tail = List.ofFn fun j : Fin 7 => (j.succ, getVoice vs j.succ) := rfl

/-- The most recently queued note is that of the lowest slot that holds one (45 R268, R269). -/
theorem queueView_head (vs : VoiceFile) :
    (queueView vs).head? = (queuedSlot vs).map fun t => (getVoice vs t).note := by
  have view : queueView vs = ((indexedVoices vs).tail.filter fun x => voiceIsHeld x.2).map (·.2.note) :=
    List.filter_map (f := fun x : Fin 8 × Voice => x.2.note) (l := (indexedVoices vs).tail)
  rw [view, List.head?_map, List.head?_filter, queuedSlot, Option.map_map]
  refine Option.map_congr fun x hx => ?_
  obtain ⟨j, rfl⟩ := mem_indexedVoices_tail.1 (List.mem_of_find?_eq_some hx)
  rfl

/-- No slot below the popped one holds a note (45 R268). -/
theorem queuedSlot_lowest {vs : VoiceFile} {t j : Fin 8} (h : queuedSlot vs = some t) (h0 : 0 < j) (hj : j < t) :
    (getVoice vs j).note ≤ 0 := by
  obtain ⟨x, hx, rfl⟩ := Option.map_eq_some_iff.1 h
  rw [indexedVoices_tail_eq_ofFn, List.find?_eq_some_iff_getElem] at hx
  obtain ⟨-, i, hi, rfl, lower⟩ := hx
  rw [List.getElem_ofFn, Fin.lt_def] at hj
  obtain ⟨m, rfl⟩ := Fin.eq_succ_of_ne_zero (Fin.pos_iff_ne_zero.1 h0)
  have free := lower m (by simpa using hj)
  rw [List.getElem_ofFn] at free
  simpa [voiceIsHeld] using free

/-- An empty queue is left as it is (45 R268). -/
theorem popQueue_of_empty {k : Key} {s : State} (hnotes : ∀ i, (getVoice s.voices i).written.note = true)
    (h : queueView s.voices = []) : popQueue k s = .ok s := by
  have none : queuedSlot s.voices = none := by
    have head := queueView_head s.voices
    rw [h] at head
    exact Option.map_eq_none_iff.1 head.symm
  have pop : popNote s.voices = (0, s.voices) := by rw [popNote, none]
  rw [popQueue, nextQueuedNote_ok.2 ⟨notesSet_tail.2 fun j => hnotes j.succ, pop⟩]
  rfl

/-- Nothing is popped in poly mode, for another note than that of voice 0, or from an empty queue (44 R234). -/
theorem popIfSounding_of_silent {k : Key} {n : Int} {s : State}
    (hnotes : ∀ i, (getVoice s.voices i).written.note = true)
    (h : s.snapshot.numVoices ≠ 1 ∨ s.voices.v0.note ≠ n ∨ queueView s.voices = []) :
    popIfSounding k n s = .ok s := by
  have h0 : s.voices.v0.written.note = true := hnotes 0
  unfold popIfSounding
  split
  next hmono =>
    rw [h0, need_true, ok_bind]
    split
    next hsounding =>
      refine popQueue_of_empty hnotes ?_
      simpa [isMono_iff.1 hmono, hsounding] using h
    next => rfl
  next => rfl

/-- The slot that a pop takes its note from, and what the pop leaves (45 R268). -/
theorem nextQueuedNote_of_queueView {vs : VoiceFile} {q : Int} {rest : List Int}
    (hnotes : ∀ i, (getVoice vs i).written.note = true) (h : queueView vs = q :: rest) :
    ∃ ws t, nextQueuedNote vs = .ok (q, ws) ∧ 0 < q ∧ t ≠ 0 ∧ (getVoice vs t).note = q ∧
      (∀ j, 0 < j → j < t → (getVoice vs j).note ≤ 0) ∧
      ∀ j, getVoice ws j = if j = t then { getVoice vs t with note := 0 } else getVoice vs j := by
  have head := queueView_head vs
  rw [h, List.head?_cons] at head
  obtain ⟨t, ht, hq⟩ := Option.map_eq_some_iff.1 head.symm
  obtain ⟨m, rfl, hpos⟩ := queuedSlot_some ht
  have pop : popNote vs = (q, setVoice vs m.succ (writeNote 0 (getVoice vs m.succ))) := by rw [popNote, ht, ← hq]
  refine ⟨_, m.succ, nextQueuedNote_ok.2 ⟨notesSet_tail.2 fun j => hnotes j.succ, pop⟩, hq ▸ hpos, Fin.succ_ne_zero m, hq,
    fun i => queuedSlot_lowest ht, fun j => ?_⟩
  rw [getVoice_setVoice, writeNote_of_set (hnotes m.succ)]

/-! ## Retuning voice 0 -/

/-- Note, pan position and gains are written together: where they hold values already, no set-bit changes (43 R205). -/
theorem writeNotePan_of_set {fp : Bool} {v : Voice} (h : voiceSet fp v = true) (k : Key) (x y : F32) (n : Int) :
    voiceGains k (writePanning x (writeTargetPanning y (writeNote n v))) =
      { v with
        note := n, panning := x, targetPanning := y,
        panLeft := Config.sin (fmul (1 :: k) fPiOver4 (fsub (0 :: k) f1 x)),
        panRight := Config.sin (fmul (3 :: k) fPiOver4 (fadd (2 :: k) f1 x)) } := by
  obtain ⟨hnote, hpanning, htarget, hgains, -⟩ := voiceSet_iff.1 h
  have written : ({ v.written with note := true, panning := true, targetPanning := true, gains := true } : Written) =
      v.written := by
    cases hw : v.written
    simp_all
  simp only [voiceGains, writePanning, writeTargetPanning, writeNote, written]

/-- The gains that `VOICE.GAINS` writes are those of the pan position (43 R205). -/
theorem gainsOf_of_eq (k : Key) {u : Voice}
    (hleft : u.panLeft = Config.sin (fmul (1 :: k) fPiOver4 (fsub (0 :: k) f1 u.panning)))
    (hright : u.panRight = Config.sin (fmul (3 :: k) fPiOver4 (fadd (2 :: k) f1 u.panning))) : GainsOf u :=
  ⟨⟨_, _, hleft⟩, ⟨_, _, hright⟩⟩

theorem panOf_panOf (k : Key) (n : Int) : PanOf n (panOf k n) := ⟨1 :: k, 0 :: k, rfl⟩

theorem ite_writePeriod (jump : Prop) [Decidable jump] (x : F32) (v : Voice) :
    (if jump then writePeriod x v else v) = { v with
      period := if jump then x else v.period
      written := { v.written with period := v.written.period || decide jump } } := by
  by_cases h : jump <;> simp [h, writePeriod]

theorem ite_writeCutoff (fp : Bool) (x : F32) (v : Voice) :
    (if fp then writeCutoff x v else v) = { v with
      cutoff := if fp then x else v.cutoff
      written := { v.written with cutoff := fp || v.written.cutoff } } := by
  cases fp <;> rfl

theorem cutoffOf_retunedCutoff (k : Key) (s : State) (p : F32) (vel : Int) :
    CutoffOf s (decide (0 < vel)) p vel (retunedCutoff k s p vel) := by
  refine ⟨1 :: 1 :: k, 1 :: 0 :: k, 0 :: 0 :: k, 0 :: 1 :: k, ?_⟩
  unfold retunedCutoff
  by_cases h : 0 < vel <;> simp [h] <;> rfl

/-- The nudge raises the level by twice `SILENCE` (41 R163; 45 R266). -/
theorem envNudge_of_set {e : Envelope} (h : e.levelSet = true) (k : Key) :
    envNudge k e = .ok { e with level := fadd (1 :: k) e.level 0x3951B717#32 } := by
  simp only [envNudge, h, need_true, ok_bind, twiceSilence, fadd_silence]
  rfl

theorem readPanning_of_set {v : Voice} (h : v.written.panning = true) : readPanning v = .ok v.panning :=
  readSet_ok.2 ⟨h, rfl⟩

/-- The voice with the registers that a retune writes from the period: the target, in glide mode 0 the period itself, and
the cutoff when there is a filter (45 R266). -/
def retunedPitch (s : State) (k : Key) (p : F32) (vel : Int) (v : Voice) : Voice :=
  { v with
    target := p
    period := if s.snapshot.glideMode = 0 then p else v.period
    cutoff := if s.params.filterPresent then retunedCutoff k s p vel else v.cutoff
    written := { v.written with
      target := true
      period := v.written.period || decide (s.snapshot.glideMode = 0)
      cutoff := s.params.filterPresent || v.written.cutoff } }

/-- `RESTART_MONO_VOICE` writes the pitch, the level, the note and the pan position; in glide mode 0 the pan jumps to its
target (45 R266). -/
theorem retunedVoice_eq {v : Voice} (hlevel : v.env.levelSet = true) (hpanning : v.written.panning = true) (s : State)
    (k : Key) (p : F32) (n vel : Int) :
    retunedVoice s k p n vel v =
      .ok (voiceGains (3 :: k)
        (writePanning (if s.snapshot.glideMode = 0 then panOf (0 :: k) n else v.panning)
          (writeTargetPanning (panOf (0 :: k) n) (writeNote n
            { retunedPitch s (1 :: k) p vel v with
              env := { v.env with level := fadd (1 :: 2 :: k) v.env.level 0x3951B717#32 } })))) := by
  unfold retunedVoice
  simp only [envNudge_of_set hlevel, ok_bind, ite_writePeriod, ite_writeCutoff, retunedPitch]
  split
  next => rfl
  next =>
    rw [readPanning_of_set (by exact hpanning), ok_bind]
    rfl

/-- `RESTART_MONO_VOICE` of a voice whose registers hold values completes and retunes it (45 R266). -/
theorem retunedVoice_of_set (s : State) (k : Key) (p : F32) (n vel : Int) {v : Voice}
    (hv : voiceSet s.params.filterPresent v = true) :
    ∃ u, retunedVoice s k p n vel v = .ok u ∧ Retuned s p n vel v u := by
  obtain ⟨-, hpanning, -, -, -, -, -, henv, -⟩ := voiceSet_iff.1 hv
  refine ⟨_, retunedVoice_eq (envSet_iff.1 henv).1 hpanning s k p n vel, ?_⟩
  rw [writeNotePan_of_set (fp := s.params.filterPresent) (by exact hv)]
  exact {
    note := rfl
    target := rfl
    period := rfl
    targetPanning := panOf_panOf (0 :: k) n
    panning := rfl
    gains := gainsOf_of_eq (3 :: k) rfl rfl
    level := ⟨_, rfl⟩
    cutoff := by
      cases hfp : s.params.filterPresent
      · exact ⟨by simp [retunedPitch, hfp], by simp [retunedPitch, hfp]⟩
      · simp only [retunedPitch, hfp]
        exact ⟨cutoffOf_retunedCutoff .., rfl⟩
    unwritten := rfl }

/-- The terms of a retune are those of the snapshot, the configuration and the sample rate. -/
theorem retuned_congr {s t : State} {p : F32} {n vel : Int} {v u : Voice} (h : Retuned s p n vel v u)
    (hsnapshot : t.snapshot = s.snapshot) (hparams : t.params = s.params) (hrate : t.sampleRate = s.sampleRate) :
    Retuned t p n vel v u := by
  cases s
  cases t
  cases hsnapshot
  cases hparams
  cases hrate
  exact { h with }

/-- A retuned voice holds the values it held, and a note (45 R266). -/
theorem voiceSet_of_retuned {s : State} {p : F32} {n vel : Int} {v u : Voice} (h : Retuned s p n vel v u) {fp : Bool}
    (hv : voiceSet fp v = true) : voiceSet fp u = true := by
  obtain ⟨_, henv⟩ := h.level
  rw [h.unwritten, henv]
  exact hv

/-- `RESTART_MONO_VOICE` with a defined period completes: it retunes voice 0 and writes `lastNote` (45 R266). -/
theorem restartMonoVoice_of_set {k : Key} {s : State} {p : F32} {n vel : Int}
    (hp : calcPeriod (0 :: k) s.snapshot 0 n = .ok p)
    (hv : voiceSet s.params.filterPresent (getVoice s.voices 0) = true) :
    ∃ u, restartMonoVoice k n vel s = .ok (writeLastNote n { s with voices := setVoice s.voices 0 u }) ∧
      Retuned s p n vel (getVoice s.voices 0) u := by
  obtain ⟨u, hu, hretuned⟩ := retunedVoice_of_set s (1 :: k) p n vel hv
  refine ⟨u, ?_, hretuned⟩
  rw [restartMonoVoice, hp, ok_bind, hu]
  rfl

/-- The pop of a sounding note: the queued note `q` leaves its slot, and voice 0 is retuned to it (44 R234; 45 R268). -/
theorem popIfSounding_of_queueView {k : Key} {n q : Int} {rest : List Int} {p : F32} {s : State}
    (hv : ∀ i, voiceSet s.params.filterPresent (getVoice s.voices i) = true) (hmono : s.snapshot.numVoices = 1)
    (hsounding : s.voices.v0.note = n) (hq : queueView s.voices = q :: rest)
    (hp : calcPeriod (0 :: k) s.snapshot 0 q = .ok p) :
    ∃ vs t u, popIfSounding k n s = .ok (writeLastNote q { s with voices := vs }) ∧ t ≠ 0 ∧
      (getVoice s.voices t).note = q ∧ (∀ j, 0 < j → j < t → (getVoice s.voices j).note ≤ 0) ∧
      Retuned s p q (-1) s.voices.v0 u ∧
      ∀ j, getVoice vs j =
        if j = 0 then u else if j = t then { getVoice s.voices t with note := 0 } else getVoice s.voices j := by
  have hnotes (i : Fin 8) := note_set_of_voiceSet (hv i)
  have hset : s.voices.v0.written.note = true := hnotes 0
  obtain ⟨ws, t, hpop, hpos, ht, hnote, hlow, hws⟩ := nextQueuedNote_of_queueView hnotes hq
  have h0 : getVoice ws 0 = s.voices.v0 := (hws 0).trans (if_neg ht.symm)
  obtain ⟨u, hu, hretuned⟩ := restartMonoVoice_of_set (vel := -1) (s := { s with voices := ws }) hp
    (by rw [h0]; exact hv 0)
  rw [h0] at hretuned
  refine ⟨setVoice ws 0 u, t, u, ?_, ht, hnote, hlow, retuned_congr hretuned rfl rfl rfl, fun j => ?_⟩
  · rw [popIfSounding, if_pos (isMono_iff.2 hmono), hset, need_true, ok_bind, if_pos hsounding, popQueue, hpop, ok_bind]
    exact (if_pos hpos).trans hu
  · rw [getVoice_setVoice, hws]

/-! ## The note-off -/

/-- A note-off is its pop and then the release scan (44 R234). -/
theorem noteOffOp_of_pop {k : Key} {n : Int} {s t : State} (hpop : popIfSounding k n s = .ok t)
    (hpedal : t.written.sustainPedalPressed = true)
    (hv : ∀ i, voiceSet t.params.filterPresent (getVoice t.voices i) = true) :
    ∃ vs, noteOffOp k n s = .ok { t with voices := vs } ∧
      ∀ j, getVoice vs j = scannedVoice t.params.filterPresent t.sustainPedalPressed n (getVoice t.voices j) := by
  have scan : releaseScan n t = .ok (releaseVoices n t) := by
    refine releaseScan_ok.2 ⟨notesSet_iff.2 fun i => note_set_of_voiceSet (hv i), ?_, rfl⟩
    rw [hpedal, Bool.true_or]
  refine ⟨(releaseVoices n t).voices, ?_, fun j => ?_⟩
  · rw [noteOffOp, hpop, ok_bind, scan]
    rfl
  · rw [releaseVoices_voices, getVoice_mapVoices, releaseMatching_of_set (hv j)]

/-! ## The legato note-on -/

/-- With a note held in mono mode, a note-on is a push and a retune (44 R232). -/
theorem noteOnOp_legato {k : Key} {n vel : Int} {s : State} (hnotes : ∀ i, (getVoice s.voices i).written.note = true)
    (hmono : s.snapshot.numVoices = 1) (hheld : 0 < s.voices.v0.note) :
    noteOnOp k n vel s =
      restartMonoVoice k n vel { s with voices := pushNotes s.params.filterPresent s.voices } := by
  have hset : s.voices.v0.written.note = true := hnotes 0
  have held : voiceIsHeld s.voices.v0 = true := decide_eq_true hheld
  have push : shiftQueuedNotes s.params.filterPresent s.voices = .ok (pushNotes s.params.filterPresent s.voices) :=
    shiftQueuedNotes_ok.2 ⟨notesSet_take_seven.2 fun j => hnotes j.castSucc, rfl⟩
  rw [noteOnOp, if_pos (isMono_iff.2 hmono), hset, need_true, ok_bind, if_pos held, push, ok_bind]

end Sys2Proof.Machine
end

section
/-!
SUPPORT. The start of a voice whose registers hold values, in the terms of the claims (40_noise_oscillator.md R138;
41_envelope.md R163; 44_events.md R232; 45_allocation.md R262, R264, R265).
-/

namespace Sys2Proof.Machine

open Sys2Proof.Claims

/-! ## Oscillators -/

/-- An oscillator at rest does not rise, so a rising one has its `phaseMax` (70 R384). -/
theorem phaseMaxSet_of_oscSafe {o : Oscillator} (h : oscSafe o = true) (hrise : flt f0 o.inc = true) :
    o.phaseMaxSet = true := by
  rcases Bool.or_eq_true_iff.1 h with hset | hrest
  · exact hset
  · obtain ⟨-, hinc⟩ : o.phase = f0 ∧ o.inc = f0 := by simpa using hrest
    simp [hinc] at hrise

/-- `OSC.SQUAREWAVE` from a sound oscillator completes and resynchronises; it writes no amplitude (40 R138). -/
theorem oscSquareWave_of_safe (k : Key) (o : Oscillator) (x : F32) {other : Oscillator} (hc : other.cycleSet = true)
    (hsafe : oscSafe other = true) :
    ∃ u, oscSquareWave k o other x = .ok u ∧ u.amplitude = o.amplitude ∧ Resynchronised o other x u := by
  obtain ⟨⟨start, inc⟩, hstart⟩ := squareWaveStart_completes (0 :: k) hc (phaseMaxSet_of_oscSafe hsafe)
  have done := (oscSquareWave_ok (o := o) (p := x)).2 ⟨start, inc, hstart, _, rfl, rfl⟩
  exact ⟨_, done, rfl, oscSquareWave_resynchronised done⟩

/-- The oscillators `o1` and `o2` are those that a note start at the period `x` leaves of `a` and `b` (45 R265). -/
structure StartedOscillators (p : Snapshot) (x : F32) (vel : Int) (a b o1 o2 : Oscillator) : Prop where
  amplitude : ∃ k1 k2 k3, o1.amplitude =
    fmul k1 p.volumeTrim (fsub k2 (fmul k3 fVelK (fofInt ((vel + 64) * (vel + 64)))) f8)
  osc1      : o1 = { a with amplitude := o1.amplitude }
  partner   : ∃ k, o2.amplitude = fmul k o1.amplitude p.oscMix
  osc2      : if squareWaveOn p then Resynchronised { b with amplitude := o2.amplitude } o1 x o2
              else o2 = { b with amplitude := o2.amplitude }

theorem startOscillators_of_safe (k : Key) (p : Snapshot) (x : F32) (vel : Int) {v : Voice}
    (hc : v.osc1.cycleSet = true) (hsafe : oscSafe v.osc1 = true) :
    ∃ o1 o2, startOscillators k p x vel v = .ok { v with osc1 := o1, osc2 := o2 } ∧
      StartedOscillators p x vel v.osc1 v.osc2 o1 o2 := by
  have square : (feq p.vibrato f0 && flt f0 p.pwmDepth) = squareWaveOn p := rfl
  unfold startOscillators
  simp only [square]
  split
  next hon =>
    obtain ⟨u, hu, hamplitude, hsync⟩ := oscSquareWave_of_safe (3 :: k)
      { v.osc2 with amplitude := fmul (2 :: k) (fmul (1 :: k) p.volumeTrim (velocityGain (0 :: k) vel)) p.oscMix } x
      (other := { v.osc1 with amplitude := fmul (1 :: k) p.volumeTrim (velocityGain (0 :: k) vel) }) hc hsafe
    rw [hu, ok_bind]
    exact ⟨_, u, rfl, ⟨_, _, _, rfl⟩, rfl, ⟨_, hamplitude⟩, (if_pos hon).mpr (by rw [hamplitude]; exact hsync)⟩
  next hoff => exact ⟨_, _, rfl, ⟨_, _, _, rfl⟩, rfl, ⟨_, rfl⟩, (if_neg hoff).mpr rfl⟩

/-! ## Envelopes -/

/-- `ENV.ATTACK` after the latch (41 R163; 45 R265). -/
theorem envAttack_envLatch {e : Envelope} (h : e.levelSet = true) (k : Key) (attack decay sustain release : F32) :
    ∃ u, envAttack k (envLatch attack decay sustain release e) = .ok u ∧
      AttackedEnv attack decay sustain release e u := by
  refine ⟨_, envAttack_ok.2 ⟨h, rfl⟩, 1 :: k, ?_⟩
  rw [twiceSilence, fadd_silence]
  simp only [envLatch, h]
  rfl

/-- The envelopes that a note start leaves of `a` and of `b`, whatever else the voice holds (45 R265). -/
theorem startEnvelopes_of_set {fp : Bool} (k : Key) (p : Snapshot) {a b : Envelope} (ha : a.levelSet = true)
    (hb : fp = true → b.levelSet = true) :
    ∃ e f, (∀ v : Voice, v.env = a → v.filterEnv = b →
        startEnvelopes fp k p v = .ok { v with env := e, filterEnv := f }) ∧
      AttackedEnv p.envAttack p.envDecay p.envSustain p.envRelease a e ∧
      if fp then AttackedEnv p.filterAttack p.filterDecay p.filterSustain p.filterRelease b f else f = b := by
  obtain ⟨e, he, hattack⟩ := envAttack_envLatch ha (0 :: k) p.envAttack p.envDecay p.envSustain p.envRelease
  cases fp with
  | true =>
    obtain ⟨f, hf, hfattack⟩ := envAttack_envLatch (hb rfl) (1 :: k) p.filterAttack p.filterDecay p.filterSustain
      p.filterRelease
    refine ⟨e, f, ?_, hattack, hfattack⟩
    rintro v rfl rfl
    rw [startEnvelopes, he, ok_bind, if_pos rfl, hf]
    rfl
  | false =>
    refine ⟨e, b, ?_, hattack, rfl⟩
    rintro v rfl rfl
    rw [startEnvelopes, he]
    rfl

/-! ## The started voice -/

theorem glideDistance_eq_glideOf (s : State) (n : Int) : glideDistance s n = glideOf s n := by
  unfold glideDistance glideOf
  simp only [isPlayingLegatoStyle_iff]
  split_ifs <;> simp_all

theorem startPeriod_startPeriod (k : Key) (s : State) (p : F32) (n : Int) :
    StartPeriod s p n (startPeriod k p (glideDistance s n) s.snapshot.glideBend) := by
  rw [glideDistance_eq_glideOf]
  exact ⟨_, _, _, rfl, rfl⟩

/-- The voice with the registers that a note start writes first: the target period `p`, the start period `x`, the note and
the pan position `y` (45 R265). -/
def startedPitch (k : Key) (p x y : F32) (n : Int) (v : Voice) : Voice :=
  { v with
    note := n
    target := p
    period := x
    panning := y
    targetPanning := y
    panLeft := Config.sin (fmul (1 :: k) fPiOver4 (fsub (0 :: k) f1 y))
    panRight := Config.sin (fmul (3 :: k) fPiOver4 (fadd (2 :: k) f1 y))
    written := { v.written with target := true, period := true } }

theorem startedPitch_of_set {fp : Bool} {v : Voice} (h : voiceSet fp v = true) (k : Key) (p x y : F32) (n : Int) :
    voiceGains k (writePan y (writeNote n (writePeriod x (writeTarget p v)))) = startedPitch k p x y n v :=
  writeNotePan_of_set (fp := fp) (v := writePeriod x (writeTarget p v)) h k y y n

/-- `START_VOICE` of a voice whose registers hold values and whose first oscillator is sound completes and starts it
(45 R265). -/
theorem startedVoice_of_set (s : State) (k : Key) (p x : F32) (n vel : Int) {v : Voice}
    (hv : voiceSet s.params.filterPresent v = true) (hsafe : oscSafe v.osc1 = true) (hx : StartPeriod s p n x) :
    ∃ u, startedVoice s k p x n vel v = .ok u ∧ Started s p n vel v u := by
  obtain ⟨-, -, -, -, -, hc, -, henv, hfilter⟩ := voiceSet_iff.1 hv
  have hpan := panOf_panOf (0 :: k) n
  unfold startedVoice
  generalize panOf (0 :: k) n = y at hpan
  obtain ⟨o1, o2, hosc, hstarted⟩ := startOscillators_of_safe (2 :: k) s.snapshot x vel
    (v := startedPitch (1 :: k) p x y n v) hc hsafe
  obtain ⟨e, f, henvs, hattack, hfattack⟩ := startEnvelopes_of_set (fp := s.params.filterPresent) (5 :: k) s.snapshot
    (envSet_iff.1 henv).1 fun h => (envSet_iff.1 (hfilter h).1).1
  simp only [startedPitch_of_set hv, hosc, ok_bind, ite_writeCutoff]
  exact ⟨_, henvs _ rfl rfl, {
    note := rfl
    target := rfl
    period := hx
    targetPanning := hpan
    panning := rfl
    gains := gainsOf_of_eq (1 :: k) rfl rfl
    amplitude := hstarted.amplitude
    osc1 := hstarted.osc1
    partner := hstarted.partner
    osc2 := hstarted.osc2
    env := hattack
    cutoff := by
      cases s.params.filterPresent
      · exact ⟨rfl, Bool.false_or _⟩
      · exact ⟨⟨_, _, _, _, rfl⟩, rfl⟩
    filterEnv := hfattack
    unwritten := rfl }⟩

/-- `START_VOICE` with a defined period completes: it starts its voice and writes `lastNote` (45 R265). -/
theorem startVoice_of_set {k : Key} {i : Fin 8} {s : State} {p : F32} {n : Int} (vel : Int) (hset : registersSet s = true)
    (hp : calcPeriod (0 :: k) s.snapshot i n = .ok p) (hsafe : oscSafe (getVoice s.voices i).osc1 = true) :
    ∃ u, startVoice k i n vel s = .ok (writeLastNote n { s with voices := setVoice s.voices i u }) ∧
      Started s p n vel (getVoice s.voices i) u := by
  obtain ⟨hwritten, hv⟩ := registersSet_iff.1 hset
  have distance : readGlideDistance s n = .ok (glideDistance s n) := by
    refine readGlideDistance_ok.2 ⟨by rw [hwritten]; rfl, fun _ => ?_, rfl⟩
    exact notesSet_iff.2 fun j => note_set_of_voiceSet (hv j)
  obtain ⟨u, hu, hstarted⟩ := startedVoice_of_set s (2 :: k) p _ n vel (hv i) hsafe
    (startPeriod_startPeriod (1 :: k) s p n)
  refine ⟨u, ?_, hstarted⟩
  simp only [startVoice, hp, distance, ok_bind, hu]
  rfl

/-- A note-on that is no legato retune starts voice 0 in mono mode and the allocator's voice in poly mode (44 R232). -/
theorem noteOnOp_start {k : Key} {n vel : Int} {s : State} {i : Fin 8} (hnote : s.voices.v0.written.note = true)
    (hfree : s.snapshot.numVoices = 1 → s.voices.v0.note ≤ 0)
    (hi : if s.snapshot.numVoices = 1 then i = 0 else findFreeVoice s.snapshot s.voices = .ok i) :
    noteOnOp k n vel s = startVoice k i n vel s := by
  unfold noteOnOp
  split at hi
  next hmono =>
    subst hi
    have free : ¬ voiceIsHeld s.voices.v0 = true := fun h => absurd (of_decide_eq_true h) (hfree hmono).not_gt
    rw [if_pos (isMono_iff.2 hmono), hnote, need_true, ok_bind, if_neg free]
  next hpoly => rw [if_neg (mt isMono_iff.1 hpoly), hi, ok_bind]

end Sys2Proof.Machine
end

section
/-!
PROOFS. The statements of the family of 44_events.md.
-/

namespace Sys2Proof.Proofs

open Sys2Proof.Machine Sys2Proof.Claims

/-- Settles O7, by the length of the record. A short one acts as the record with its missing data bytes 0, and a long one
is ignored on both sides. -/
theorem tableAndDispatchAgree : Obligations.TableAndDispatchAgree := by
  intro bytes s hne
  match bytes with
  | [] => exact absurd rfl hne
  | [b0] => exact congrArg (mapNext afterEvent) (eventApply_record b0 0 0 s).symm
  | [b0, b1] => exact congrArg (mapNext afterEvent) (eventApply_record b0 b1 0 s).symm
  | [b0, b1, b2] => exact congrArg (mapNext afterEvent) (eventApply_record b0 b1 b2 s).symm
  | b0 :: b1 :: b2 :: b3 :: rest =>
    have long : 3 < (b0 :: b1 :: b2 :: b3 :: rest).length := by simp
    rw [eventApply, if_pos long]
    rfl

/-- Settles O16: every voice is reset, and the level +0.0 is not above `SILENCE`. -/
theorem allNotesOffSilencesEveryVoice : Obligations.AllNotesOffSilencesEveryVoice := by
  intro ch c val s
  refine ⟨_, rfl, fun i => ?_⟩
  rw [getVoice_mapVoices, voiceReset_eq_silencedVoice]
  exact ⟨rfl, (by decide : flt fSilence f0 = false)⟩

/-- Settles O57, by cases on what a step inside a block can do: a frame and the end of the block keep the notifications,
and of the events only a program change adds one. -/
theorem onlyProgramChangeNotifies : Obligations.OnlyProgramChangeNotifies := by
  intro s t b hb h
  cases (step_next h).2 with
  | frame c u _ _ hu => exact .inl (segmentFrame_frame hu).1.notifications
  | frameFault | blockEnd => exact .inl rfl
  | event c e t hc he _ ht =>
    obtain rfl : b = c := Option.some.inj (hb.symm.trans hc)
    exact (applyEvent_notifications ht).imp id fun ⟨ch, prog, d2, hdecode, ht⟩ => ⟨e, ch, prog, d2, he, hdecode, ht⟩
  | idle hn => simp [hn] at hb
  | command _ _ _ hn => simp [hn] at hb

/-- Settles O12: each of these arms returns the state it was given. -/
theorem ignoredRecordsChangeNothing : Obligations.IgnoredRecordsChangeNothing :=
  ⟨fun _ _ _ _ => rfl, fun _ _ _ _ => rfl, fun _ _ _ _ => rfl, fun _ _ _ _ => rfl, fun _ _ _ _ => rfl⟩

/-- Settles O13. The product at 127 is no NaN, so it is the same for every draw key. -/
theorem modWheelIsSquared : Obligations.ModWheelIsSquared := by
  refine ⟨fun _ _ _ => rfl, fun ch s => ?_⟩
  have amount : modWheelAmount (stepKey s) 127 = 0x3DA52934#32 := fmul_eq (by decide +kernel) (by decide) _
  rw [← amount]
  rfl

/-- Settles O14. At the centre the exponent is -0.0, where `Exp` is 1.0 by the law of 00 R10. -/
theorem pitchBendSetsRatio : Obligations.PitchBendSetsRatio := by
  refine ⟨fun _ _ _ => rfl, fun ch s => ?_⟩
  have exponent : fmul (stepKey s) fBendK (fofInt (bendValue 8192 - 8192)) = 0x80000000#32 :=
    fmul_eq (by decide +kernel) (by decide) _
  have ratio : bendRatio (stepKey s) 8192 = 0x3F800000#32 := by
    rw [bendRatio, exponent]
    rfl
  rw [← ratio]
  rfl

/-- Settles O15. -/
theorem programChangeNotifies : Obligations.ProgramChangeNotifies := fun _ _ _ _ => rfl

/-- Settles O17: with the pedal pressed no release scan runs. -/
theorem pedalDownSetsFlag : Obligations.PedalDownSetsFlag := by
  intro ch val s hval
  have pressed : pedalPressed val = true := decide_eq_true (Int.ofNat_le.2 hval)
  simp only [exec, execCcSustain, sustainOp, pressed, if_true, finish_ok]
  rfl

/-- Settles O18: with nothing to pop, the note-off is its release scan. -/
theorem noteOffReleasesMatchingVoices : Obligations.NoteOffReleasesMatchingVoices := by
  intro i n s hset hi hsilent
  obtain ⟨hwritten, hv⟩ := registersSet_iff.1 hset
  have hpedal : s.written.sustainPedalPressed = true := by rw [hwritten]; rfl
  have hpop : popIfSounding (stepKey s) n (releasing n s) = .ok (releasing n s) :=
    popIfSounding_of_silent (fun j => note_set_of_voiceSet (hv j)) hsilent
  obtain ⟨vs, hscan, hvs⟩ := noteOffOp_of_pop hpop hpedal hv
  exact ⟨vs, by rw [exec_releasedNote hi hpedal, hscan]; rfl, hvs⟩

/-- Settles O19: the pop frees its slot and retunes voice 0, which leaves every voice set for the scan. -/
theorem monoNoteOffPopsQueue : Obligations.MonoNoteOffPopsQueue := by
  intro i n s q rest p hset hi hmono hsounding hq hp
  obtain ⟨hwritten, hv⟩ := registersSet_iff.1 hset
  have hpedal : s.written.sustainPedalPressed = true := by rw [hwritten]; rfl
  obtain ⟨ws, t, u, hpop, ht, hnote, hlow, hretuned, hws⟩ :=
    popIfSounding_of_queueView (s := releasing n s) hv hmono hsounding hq hp
  have hset' (j : Fin 8) : voiceSet s.params.filterPresent (getVoice ws j) = true := by
    rw [hws]
    split_ifs
    · exact voiceSet_of_retuned hretuned (hv 0)
    · exact hv t
    · exact hv j
  obtain ⟨vs, hscan, hvs⟩ := noteOffOp_of_pop hpop hpedal hset'
  refine ⟨vs, t, u, ?_, ht, hnote, hlow, retuned_congr hretuned rfl rfl rfl, fun j => ?_⟩
  · rw [exec_releasedNote hi hpedal, hscan]
    simp only [finish_ok, writeLastNote, releasing, hwritten]
    rfl
  · exact (hvs j).trans (congrArg _ (hws j))

/-- Settles O20: no read stops the start of the voice, and its set-bit of `lastNote` was set. -/
theorem noteOnStartsVoice : Obligations.NoteOnStartsVoice := by
  intro ch n vel s i p hset hfree hi hp hsafe
  obtain ⟨hwritten, hv⟩ := registersSet_iff.1 hset
  have start := noteOnOp_start (k := stepKey s) (n := n.toNat) (vel := vel.toNat) (note_set_of_voiceSet (hv 0)) hfree hi
  obtain ⟨u, hu, hstarted⟩ := startVoice_of_set vel.toNat hset hp hsafe
  refine ⟨u, hstarted, (congrArg (finish s) (start.trans hu)).trans ?_⟩
  simp only [finish_ok, writeLastNote, hwritten]
  rfl

/-- Settles O21: the push leaves voice 0 alone and gives each slot the note below it; then voice 0 is retuned. -/
theorem monoLegatoNoteOnRetunes : Obligations.MonoLegatoNoteOnRetunes := by
  intro ch n vel s p hset hmono hheld hp
  obtain ⟨hwritten, hv⟩ := registersSet_iff.1 hset
  have push := noteOnOp_legato (k := stepKey s) (n := n.toNat) (vel := vel.toNat)
    (fun j => note_set_of_voiceSet (hv j)) hmono hheld
  obtain ⟨u, hu, hretuned⟩ := restartMonoVoice_of_set (n := n.toNat) (vel := vel.toNat)
    (s := { s with voices := pushNotes s.params.filterPresent s.voices }) hp (hv 0)
  refine ⟨setVoice (pushNotes s.params.filterPresent s.voices) 0 u, ?_, retuned_congr hretuned rfl rfl rfl,
    fun j hj => ?_⟩
  · refine (congrArg (finish s) (push.trans hu)).trans ?_
    simp only [finish_ok, writeLastNote, hwritten]
    rfl
  · obtain ⟨m, rfl⟩ := Fin.eq_succ_of_ne_zero hj
    have below : m.succ - 1 = m.castSucc := by revert m; decide
    rw [getVoice_setVoice_of_ne _ _ hj, getVoice_pushNotes_succ, below, voiceRelease_writeNote_of_set (hv m.succ)]

end Sys2Proof.Proofs
end

section
/-!
SUPPORT. The doubling loop of a period (45_allocation.md R260; 60_exceptions.md R365). Doubling leaves a zero or an
infinity as it is and makes every other value one of these, or at least doubles its magnitude; so no finite value goes
on growing for 277 turns.
-/

namespace Sys2Proof.Machine

open Sys2Proof.Claims

/-! ## The test of the loop -/

/-- The loop's test for any one key is the claim's: a comparison of the product does not depend on the key (45 R260). -/
theorem belowFloor_iff {k : Key} {detune x : F32} : belowFloor k detune x = true ↔ BelowFloor detune x := by
  rw [belowFloor, Bool.or_eq_true]
  exact or_congr_right ⟨fun h => ⟨k, h⟩, fun ⟨k', h⟩ => (flt_fmul_key k' k x detune fFloor).trans h⟩

/-- A NaN is not below the floor, nor is its product (00 R8, R14). -/
theorem not_belowFloor_of_fisNaN {detune x : F32} (h : fisNaN x = true) : ¬ BelowFloor detune x := by
  rintro (hx | ⟨k, hx⟩)
  · simp [flt_nan_left _ h] at hx
  · simp [flt_nan_left _ (fisNaN_fmul_left k detune h)] at hx

/-- A loop that ends returns its argument doubled to the floor (45 R260). -/
theorem doubleToFloor_ok {k : Key} {detune a x : F32} {fuel : Nat} (h : doubleToFloor k detune fuel a = .ok x) :
    ¬ BelowFloor detune x ∧ ∃ j, DoublesTo detune j a x := by
  induction fuel generalizing a with
  | zero => cases h
  | succ fuel ih =>
    rw [doubleToFloor] at h
    split at h
    next hbelow =>
      obtain ⟨hx, j, hj⟩ := ih h
      exact ⟨hx, j + 1, belowFloor_iff.1 hbelow, _, hj⟩
    next hfloor =>
      cases h
      exact ⟨mt belowFloor_iff.2 hfloor, 0, rfl⟩

/-- A loop hangs iff its argument is below the floor and the loop from the doubled argument hangs (45 R260). -/
theorem doubleToFloor_succ_hang {k : Key} {detune x : F32} {fuel : Nat} :
    doubleToFloor k detune (fuel + 1) x = .error .hang ↔
      BelowFloor detune x ∧ doubleToFloor k detune fuel (fadd (1 :: fuel :: k) x x) = .error .hang := by
  rw [doubleToFloor, ← belowFloor_iff (k := 0 :: fuel :: k)]
  split <;> simp [*]

/-! ## Doubling -/

/-- Twice a magnitude is a magnitude, when the exponent is not bounded. -/
theorem exists_magUnits_eq_double (m : Nat) : ∃ d, magUnits d = 2 * magUnits m := by
  rcases Nat.lt_or_ge m (2 ^ 23) with h | h
  · have small := magUnits_scaled (d := 0) (r := m) (by omega) (.inl rfl)
    have double := magUnits_scaled (d := 0) (r := 2 * m) (by omega) (.inl rfl)
    simp only [Nat.zero_mul, Nat.zero_add, Nat.pow_zero, Nat.mul_one] at small double
    exact ⟨2 * m, by rw [small, double]⟩
  · obtain ⟨e, r, rfl, hr, hr'⟩ : ∃ e r, m = e * 2 ^ 23 + r ∧ 2 ^ 23 ≤ r ∧ r ≤ 2 ^ 24 :=
      ⟨m / 2 ^ 23 - 1, m % 2 ^ 23 + 2 ^ 23, by omega, by omega, by omega⟩
    refine ⟨(e + 1) * 2 ^ 23 + r, ?_⟩
    rw [magUnits_scaled hr' (.inr hr), magUnits_scaled hr' (.inr hr)]
    ring

/-- A magnitude beyond the finite ones rounds to infinity (00 R14 (b)). -/
theorem roundMag_magUnits_of_infinite {m : Nat} (h : 0x7F800000 ≤ m) : roundMag (magUnits m) 0 = 0x7F800000 := by
  have least : (2 ^ 25 - 1) * 2 ^ 252 ≤ magUnits 0x7F800000 := by decide +kernel
  have large := mt (roundMag_lt_iff (magUnits m) 0).1 (least.trans (magUnits_strictMono.monotone h)).not_gt
  have := roundMag_le_infinity (magUnits m) 0
  omega

/-- A zero or an infinity. -/
def IsZeroOrInf (x : F32) : Prop := fmag x = 0 ∨ fmag x = 0x7F800000

theorem isZeroOrInf_fzero (neg : Bool) : IsZeroOrInf (fzero neg) := .inl (by cases neg <;> decide)

theorem not_fisNaN_of_isZeroOrInf {x : F32} (h : IsZeroOrInf x) : fisNaN x = false := by
  obtain h | h := h <;> rw [fisNaN, h] <;> decide

theorem fflush_of_isZeroOrInf {x : F32} (h : IsZeroOrInf x) : fflush x = x := by
  have normal : fisSubnormal x = false := by obtain h | h := h <;> rw [fisSubnormal, h] <;> decide
  rw [fflush, normal]
  rfl

/-- Doubling leaves the zeros and the infinities as they are (00 R8). -/
theorem fadd_self_of_isZeroOrInf (k : Key) {x : F32} (h : IsZeroOrInf x) : fadd k x x = x := by
  have flushed := fflush_of_isZeroOrInf h
  obtain hzero | hinf := h
  · have finite : fisFinite x = true := by rw [fisFinite, hzero]; decide
    have value : fixedVal x = 0 := fixedVal_eq_zero.2 hzero
    rw [fadd_of_finite k finite finite, flushed, faddFinite, value, if_pos (Int.add_zero 0), Bool.and_self, fzero, ← hzero,
      fmk_fsign_fmag]
  · have inf : fisInf x = true := by rw [fisInf, hinf]; rfl
    simp [fadd, flushed, inf, not_fisNaN_of_isZeroOrInf (.inr hinf)]

/-- Doubling a finite value makes it a zero or an infinity, or a finite value of at least twice its magnitude. -/
theorem fadd_self_of_finite (k : Key) {x : F32} (hx : fisFinite x = true) :
    IsZeroOrInf (fadd k x x) ∨ fisFinite (fadd k x x) = true ∧ 2 * fixedMag x ≤ fixedMag (fadd k x x) := by
  rw [fadd_of_finite k hx hx, faddFinite]
  split
  next => exact .inl (isZeroOrInf_fzero _)
  next hne =>
    obtain kept | zero := fflush_cases x
    · obtain ⟨m, hm⟩ := exists_magUnits_eq_double (fmag x)
      have twice : (fixedVal x + fixedVal x).natAbs = magUnits m := by
        rw [hm, ← natAbs_fixedVal]
        omega
      rw [kept, twice]
      obtain hz | hz := fflush_cases (fmk (decide (fixedVal x + fixedVal x < 0)) (roundMag (magUnits m) 0)) <;> rw [hz]
      · rcases Nat.lt_or_ge m 0x7F800000 with hfin | hinf
        · rw [roundMag_magUnits hfin, fisFinite, fmag_fmk _ (by omega), fixedMag_fmk _ (by omega), hm, ← fixedMag_eq]
          exact .inr ⟨decide_eq_true hfin, le_rfl⟩
        · rw [roundMag_magUnits_of_infinite hinf]
          exact .inl (.inr (fmag_fmk _ (by omega)))
      · exact .inl (isZeroOrInf_fzero _)
    · rw [zero, fixedVal_eq_zero.2 (by cases fsign x <;> decide)] at hne
      exact absurd rfl hne

/-! ## A loop that never ends -/

/-- `turns` doublings make `x` a zero or an infinity: it is one, or its magnitude would grow past the finite ones. -/
def SettlesWithin (turns : Nat) (x : F32) : Prop :=
  IsZeroOrInf x ∨ fisFinite x = true ∧ 2 ^ 277 ≤ 2 ^ turns * fixedMag x

theorem SettlesWithin.not_fisNaN {turns : Nat} {x : F32} (h : SettlesWithin turns x) : fisNaN x = false :=
  h.elim not_fisNaN_of_isZeroOrInf fun h => not_fisNaN_of_fisFinite h.1

theorem SettlesWithin.isZeroOrInf {x : F32} (h : SettlesWithin 0 x) : IsZeroOrInf x := by
  refine h.resolve_right fun ⟨hfin, hmag⟩ => ?_
  have bound := magUnits_lt_overflow (fmag_lt_of_fisFinite hfin)
  rw [← fixedMag_eq] at bound
  omega

theorem SettlesWithin.double {turns : Nat} {x : F32} (k : Key) (h : SettlesWithin (turns + 1) x) :
    SettlesWithin turns (fadd k x x) := by
  obtain hset | ⟨hfin, hmag⟩ := h
  · exact .inl ((fadd_self_of_isZeroOrInf k hset).symm ▸ hset)
  · refine (fadd_self_of_finite k hfin).imp id fun ⟨hfin', hdouble⟩ => ⟨hfin', hmag.trans ?_⟩
    rw [Nat.pow_succ, Nat.mul_assoc]
    exact Nat.mul_le_mul_left _ hdouble

/-- Every value but a NaN settles within the turns that the model allows (log 14). -/
theorem settlesWithin_of_not_fisNaN {x : F32} (h : fisNaN x = false) : SettlesWithin 399 x := by
  rw [fisNaN, decide_eq_false_iff_not] at h
  by_cases hset : IsZeroOrInf x
  · exact .inl hset
  · have hfin : fmag x < 0x7F800000 := by unfold IsZeroOrInf at hset; omega
    have hpos : fixedMag x ≠ 0 := fun h0 => hset (.inl (magUnits_eq_zero.1 (fixedMag_eq x ▸ h0)))
    exact .inr ⟨decide_eq_true hfin, by omega⟩

/-- A loop that hangs once its argument has settled hangs after any number of turns (45 R260; 60 R365). -/
theorem doubleToFloor_hang_of_settles {k k' : Key} {detune x : F32} {n turns : Nat} (hx : SettlesWithin n x)
    (h : doubleToFloor k detune (n + 1) x = .error .hang) : doubleToFloor k' detune turns x = .error .hang := by
  induction turns generalizing n x with
  | zero => rfl
  | succ turns ih =>
    obtain ⟨hbelow, hnext⟩ := doubleToFloor_succ_hang.1 h
    refine doubleToFloor_succ_hang.2 ⟨hbelow, ?_⟩
    cases n with
    | zero =>
      rw [fadd_self_of_isZeroOrInf _ hx.isZeroOrInf]
      exact ih hx h
    | succ n =>
      have hdouble := hx.double (1 :: (n + 1) :: k)
      rw [fadd_key _ hdouble.not_fisNaN]
      exact ih hdouble hnext

end Sys2Proof.Machine
end

section
/-!
SUPPORT. The scan of the allocator: the voice it returns is the first of the quietest ones out of attack
(45_allocation.md R262, R263).
-/

namespace Sys2Proof.Machine

/-! ## The order of values that are no NaN -/

theorem fle_of_flt {x y : F32} (h : flt x y = true) : fle x y = true := by
  obtain ⟨hx, hy, hlt⟩ := flt_iff.1 h
  exact fle_iff.2 ⟨hx, hy, hlt.le⟩

theorem flt_of_flt_of_fle {x y z : F32} (h : flt x y = true) (h' : fle y z = true) : flt x z = true := by
  obtain ⟨hx, -, hlt⟩ := flt_iff.1 h
  obtain ⟨-, hz, hle⟩ := fle_iff.1 h'
  exact flt_iff.2 ⟨hx, hz, hlt.trans_le hle⟩

/-! ## The scan -/

/-- A voice that the scan takes when the best level so far is `l` (45 R262). -/
def IsQuieter (l : F32) (v : Voice) : Prop := envIsInAttack v.env = false ∧ flt v.env.level l = true

theorem scanFreeVoice_of_isQuieter {i : Fin 8} {x : Voice} {l : F32} (h : IsQuieter l x) (rest : List (Fin 8 × Voice))
    (v : Fin 8) : scanFreeVoice ((i, x) :: rest) (l, v) = scanFreeVoice rest (x.env.level, i) := by
  rw [scanFreeVoice, h.1, h.2]
  rfl

theorem scanFreeVoice_of_not_isQuieter {i : Fin 8} {x : Voice} {l : F32} (h : ¬ IsQuieter l x)
    (rest : List (Fin 8 × Voice)) (v : Fin 8) : scanFreeVoice ((i, x) :: rest) (l, v) = scanFreeVoice rest (l, v) := by
  rw [scanFreeVoice, if_neg]
  rw [Bool.and_eq_true, Bool.not_eq_true']
  exact fun hx => h hx.symm

/-- A voice of some level that the scan does not take at a level is at least that loud. -/
theorem IsQuieter.fle_of_not {l m : F32} {v : Voice} (hv : IsQuieter l v) (hm : fisNaN m = false)
    (h : ¬ IsQuieter m v) : fle m v.env.level = true := by
  obtain ⟨hnan, -, -⟩ := flt_iff.1 hv.2
  refine fle_iff.2 ⟨hm, hnan, ?_⟩
  by_contra hlt
  exact h ⟨hv.1, flt_iff.2 ⟨hnan, hm, lt_of_not_ge hlt⟩⟩

/-- What a scan over `xs` from the best level `l` finds: the voice at a place of `xs` that is quieter than `l` and than
every such voice before it, and that none after it is quieter than (45 R262). -/
def ScanFinds (xs : List (Fin 8 × Voice)) (l : F32) (r : Fin 8) : Prop :=
  ∃ pre x post, xs = pre ++ (r, x) :: post ∧ IsQuieter l x ∧
    (∀ y ∈ pre, IsQuieter l y.2 → flt x.env.level y.2.env.level = true) ∧
    ∀ y ∈ post, ¬ IsQuieter x.env.level y.2

/-- The scan keeps its first index when no voice is quieter than its first level (45 R262). -/
theorem scanFreeVoice_spec (xs : List (Fin 8 × Voice)) (l : F32) (v : Fin 8) :
    (scanFreeVoice xs (l, v) = v ∧ ∀ y ∈ xs, ¬ IsQuieter l y.2) ∨ ScanFinds xs l (scanFreeVoice xs (l, v)) := by
  induction xs generalizing l v with
  | nil => exact .inl ⟨rfl, by simp⟩
  | cons head rest ih =>
    obtain ⟨i, x⟩ := head
    by_cases hx : IsQuieter l x
    · rw [scanFreeVoice_of_isQuieter hx]
      obtain ⟨hr, hnone⟩ | ⟨pre, y, post, hrest, hy, hpre, hpost⟩ := ih x.env.level i
      · exact .inr ⟨[], x, rest, by rw [hr]; rfl, hx, by simp, hnone⟩
      · refine .inr ⟨(i, x) :: pre, y, post, congrArg (List.cons (i, x)) hrest, ⟨hy.1, flt_trans hy.2 hx.2⟩, ?_, hpost⟩
        refine List.forall_mem_cons.2 ⟨fun _ => hy.2, fun z hz hzl => ?_⟩
        by_cases hzx : IsQuieter x.env.level z.2
        · exact hpre z hz hzx
        · exact flt_of_flt_of_fle hy.2 (hzl.fle_of_not (flt_iff.1 hx.2).1 hzx)
    · rw [scanFreeVoice_of_not_isQuieter hx]
      obtain ⟨hr, hnone⟩ | ⟨pre, y, post, hrest, hy, hpre, hpost⟩ := ih l v
      · exact .inl ⟨hr, List.forall_mem_cons.2 ⟨hx, hnone⟩⟩
      · exact .inr ⟨(i, x) :: pre, y, post, congrArg (List.cons (i, x)) hrest, hy,
          List.forall_mem_cons.2 ⟨fun h => absurd h hx, hpre⟩, hpost⟩

/-! ## The voices scanned -/

theorem of_mem_scannedVoices {p : Snapshot} {vs : VoiceFile} {x : Fin 8 × Voice} (h : x ∈ scannedVoices p vs) :
    x.2 = getVoice vs x.1 ∧ (x.1.val : Int) < p.numVoices := by
  rw [scannedVoices, indexedVoices_eq_ofFn, List.mem_take_iff_getElem] at h
  obtain ⟨i, hi, rfl⟩ := h
  rw [List.length_ofFn] at hi
  rw [List.getElem_ofFn]
  exact ⟨rfl, by change (i : Int) < p.numVoices; omega⟩

/-- The scan goes upward. -/
theorem scannedVoices_pairwise (p : Snapshot) (vs : VoiceFile) :
    (scannedVoices p vs).Pairwise fun x y => x.1 < y.1 := by
  rw [scannedVoices, indexedVoices_eq_ofFn]
  refine List.Pairwise.take ?_
  exact List.pairwise_ofFn.2 fun _ _ h => h

theorem findFreeVoice_of_set {p : Snapshot} {vs : VoiceFile}
    (h : ∀ j : Fin 8, (j.val : Int) < p.numVoices →
      (getVoice vs j).env.levelSet = true ∧ (getVoice vs j).env.targetSet = true) :
    findFreeVoice p vs = .ok (quietestVoice p vs) := by
  refine findFreeVoice_ok.2 ⟨List.all_eq_true.2 fun x hx => ?_, rfl⟩
  obtain ⟨hvoice, hlt⟩ := of_mem_scannedVoices hx
  rw [hvoice, Bool.and_eq_true]
  exact h x.1 hlt

/-- Voice `r` is the first of the quietest voices below `numVoices` that are out of attack with a level below 100.0. -/
structure IsQuietestVoice (p : Snapshot) (vs : VoiceFile) (r : Fin 8) : Prop where
  inRange : (r.val : Int) < p.numVoices
  quieter : IsQuieter f100 (getVoice vs r)
  least   : ∀ j : Fin 8, (j.val : Int) < p.numVoices → IsQuieter f100 (getVoice vs j) →
              fle (getVoice vs r).env.level (getVoice vs j).env.level = true
  first   : ∀ j : Fin 8, j < r → IsQuieter f100 (getVoice vs j) →
              flt (getVoice vs r).env.level (getVoice vs j).env.level = true

/-- What a scan of the voices finds is the first of the quietest ones. -/
theorem isQuietestVoice_of_scanFinds {p : Snapshot} {vs : VoiceFile} {r : Fin 8}
    (h : ScanFinds (scannedVoices p vs) f100 r) : IsQuietestVoice p vs r := by
  obtain ⟨pre, x, post, hsplit, hx, hpre, hpost⟩ := h
  obtain ⟨rfl, hr⟩ : x = getVoice vs r ∧ (r.val : Int) < p.numVoices :=
    of_mem_scannedVoices (x := (r, x)) (by simp [hsplit])
  obtain ⟨-, hafter, -⟩ := List.pairwise_append.1 (hsplit ▸ scannedVoices_pairwise p vs)
  have place (j : Fin 8) (hj : (j.val : Int) < p.numVoices) :
      (j, getVoice vs j) ∈ pre ∨ j = r ∨ r < j ∧ (j, getVoice vs j) ∈ post := by
    have hmem := mem_scannedVoices (vs := vs) hj
    rw [hsplit, List.mem_append, List.mem_cons] at hmem
    refine hmem.imp_right (Or.imp (fun h => congrArg Prod.fst h) fun h => ⟨?_, h⟩)
    exact (List.pairwise_cons.1 hafter).1 _ h
  have hnan : fisNaN (getVoice vs r).env.level = false := (flt_iff.1 hx.2).1
  refine ⟨hr, hx, fun j hj hquiet => ?_, fun j hjr hquiet => ?_⟩
  · obtain hmem | rfl | ⟨-, hmem⟩ := place j hj
    · exact fle_of_flt (hpre (j, getVoice vs j) hmem hquiet)
    · exact fle_iff.2 ⟨hnan, hnan, le_rfl⟩
    · exact hquiet.fle_of_not hnan (hpost (j, getVoice vs j) hmem)
  · obtain hmem | rfl | ⟨hgt, -⟩ := place j (by omega)
    · exact hpre (j, getVoice vs j) hmem hquiet
    · exact absurd hjr (lt_irrefl j)
    · exact absurd hjr hgt.not_gt

/-- The allocator takes the first of the quietest voices out of attack, or voice 0 when there is none (45 R262). -/
theorem quietestVoice_spec (p : Snapshot) (vs : VoiceFile) :
    IsQuietestVoice p vs (quietestVoice p vs) ∨
      quietestVoice p vs = 0 ∧ ∀ j : Fin 8, (j.val : Int) < p.numVoices → ¬ IsQuieter f100 (getVoice vs j) := by
  obtain ⟨hzero, hnone⟩ | hfinds := scanFreeVoice_spec (scannedVoices p vs) f100 0
  · exact .inr ⟨hzero, fun j hj => hnone _ (mem_scannedVoices hj)⟩
  · exact .inl (isQuietestVoice_of_scanFinds hfinds)

/-- A voice at most as loud as an inactive one is inactive (43 R201). -/
theorem not_voiceIsActive_of_fle {v u : Voice} (h : fle v.env.level u.env.level = true)
    (hu : voiceIsActive u = false) : voiceIsActive v = false :=
  Bool.eq_false_of_not_eq_true fun hv => by simp [voiceIsActive, envIsActive, flt_of_flt_of_fle hv h] at hu

end Sys2Proof.Machine
end

section
/-!
SUPPORT. The queue view after a push, a pop and a release scan (44_events.md R234; 45_allocation.md R267 to R269).
-/

namespace Sys2Proof.Machine

theorem queueView_eq_ofFn (vs : VoiceFile) :
    queueView vs = (List.ofFn fun j : Fin 7 => (getVoice vs j.succ).note).filter (decide <| 0 < ·) := rfl

/-- A push puts voice 0's note in front of the slots' notes and drops the last (45 R267, R269). -/
theorem queueView_pushNotes (fp : Bool) (vs : VoiceFile) :
    queueView (pushNotes fp vs) =
      (List.ofFn fun j : Fin 7 => (getVoice vs j.castSucc).note).filter (decide <| 0 < ·) := by
  have notes (j : Fin 7) : (getVoice (pushNotes fp vs) j.succ).note = (getVoice vs j.castSucc).note := by
    rw [getVoice_pushNotes_succ, (voiceRelease_sameNote fp _).note]
    rfl
  rw [queueView_eq_ofFn]
  simp only [notes]

/-- A pop of an empty queue returns 0 and changes nothing (45 R268). -/
theorem popNote_of_empty {vs : VoiceFile} (h : queueView vs = []) : popNote vs = (0, vs) := by
  have head := queueView_head vs
  rw [h] at head
  rw [popNote, Option.map_eq_none_iff.1 head.symm]

/-- Clearing the first positive entry drops the head of the positive entries. -/
theorem tail_filter_ofFn {n : Nat} {f g : Fin n → Int} {m : Fin n} (hpos : 0 < f m) (hfirst : ∀ j < m, f j ≤ 0)
    (hg : ∀ j, g j = if j = m then 0 else f j) :
    ((List.ofFn f).filter (decide <| 0 < ·)).tail = (List.ofFn g).filter (decide <| 0 < ·) := by
  induction n with
  | zero => exact m.elim0
  | succ n ih =>
    rw [List.ofFn_succ, List.ofFn_succ]
    cases m using Fin.cases with
    | zero =>
      have rest (j : Fin n) : g j.succ = f j.succ := (hg j.succ).trans (if_neg j.succ_ne_zero)
      have clear : g 0 = 0 := (hg 0).trans (if_pos rfl)
      rw [List.filter_cons_of_pos (by simpa using hpos), List.filter_cons_of_neg (by simp [clear])]
      simp only [List.tail_cons, rest]
    | succ m =>
      have low : f 0 ≤ 0 := hfirst 0 m.succ_pos
      have same : g 0 = f 0 := (hg 0).trans (if_neg m.succ_ne_zero.symm)
      rw [List.filter_cons_of_neg (by simpa using low), List.filter_cons_of_neg (by simpa [same] using low)]
      refine ih hpos (fun j hj => hfirst j.succ (Fin.succ_lt_succ_iff.2 hj)) fun j => ?_
      simp only [hg, Fin.succ_inj]

/-- Clearing the lowest slot that holds a note removes the front entry of the queue (45 R268, R269). -/
theorem queueView_of_cleared {vs ws : VoiceFile} {t : Fin 8} (ht : t ≠ 0) (hpos : 0 < (getVoice vs t).note)
    (hlow : ∀ j, 0 < j → j < t → (getVoice vs j).note ≤ 0)
    (hws : ∀ j, getVoice ws j = if j = t then { getVoice vs t with note := 0 } else getVoice vs j) :
    queueView ws = (queueView vs).tail := by
  obtain ⟨m, rfl⟩ := Fin.eq_succ_of_ne_zero ht
  rw [queueView_eq_ofFn, queueView_eq_ofFn]
  refine (tail_filter_ofFn hpos (fun j hj => hlow j.succ j.succ_pos (Fin.succ_lt_succ_iff.2 hj)) fun j => ?_).symm
  simp only [hws, Fin.succ_inj, apply_ite Voice.note]

/-- Replacing every `n` by a number that is not positive removes it from the positive entries. -/
theorem filter_pos_map_replace {n c : Int} (hc : c ≤ 0) (l : List Int) :
    (l.map fun x => if x = n then c else x).filter (decide <| 0 < ·) =
      (l.filter (decide <| 0 < ·)).filter (· ≠ n) := by
  induction l with
  | nil => rfl
  | cons x l ih =>
    rw [List.filter_filter] at ih ⊢
    rw [List.map_cons]
    by_cases hx : x = n
    · rw [if_pos hx, List.filter_cons_of_neg (by simpa using hc), List.filter_cons_of_neg (by simp [hx]), ih]
    · rw [if_neg hx]
      simp only [List.filter_cons, ih, ne_eq, hx, not_false_eq_true, decide_true, Bool.true_and]

/-- The release scan takes the note of a voice that holds `n`, and leaves that of any other (44 R234). -/
theorem releaseMatching_note (fp pedal : Bool) (n : Int) (v : Voice) :
    (releaseMatching fp pedal n v).note = if v.note = n then (if pedal then -1 else 0) else v.note := by
  unfold releaseMatching
  split_ifs <;> rfl

/-- The release scan removes every entry equal to its note (44 R234; 45 R269). -/
theorem queueView_releaseMatching (fp pedal : Bool) (n : Int) (vs : VoiceFile) :
    queueView (mapVoices (fun _ v => releaseMatching fp pedal n v) vs) = (queueView vs).filter (· ≠ n) := by
  have voices : (voiceList (mapVoices (fun _ v => releaseMatching fp pedal n v) vs)).tail =
      (voiceList vs).tail.map (releaseMatching fp pedal n) := rfl
  have notes : ((voiceList vs).tail.map (releaseMatching fp pedal n)).map (·.note) =
      ((voiceList vs).tail.map (·.note)).map fun x => if x = n then (if pedal then -1 else 0) else x := by
    rw [List.map_map, List.map_map]
    exact List.map_congr_left fun v _ => releaseMatching_note fp pedal n v
  rw [queueView, voices, notes]
  exact filter_pos_map_replace (by cases pedal <;> decide) _

end Sys2Proof.Machine
end

section
/-!
PROOFS. The statements of the family of 45_allocation.md.
-/

namespace Sys2Proof.Proofs

open Sys2Proof.Machine Sys2Proof.Claims

/-- Settles O23, by induction on the turns of the loop. -/
theorem periodReachesFloor : Obligations.PeriodReachesFloor := by
  intro key k' p v n x h
  obtain ⟨hfloor, j, hj⟩ := doubleToFloor_ok h
  obtain ⟨hx, hdetuned⟩ := not_or.1 hfloor
  exact ⟨Bool.eq_false_of_not_eq_true hx, Bool.eq_false_of_not_eq_true fun hk => hdetuned ⟨k', hk⟩,
    fun i => (i + 1) :: 0 :: key, j, hj⟩

/-- Settles O24. A NaN ends the loop at once, and every other value settles within the bound. -/
theorem hangIsExact : Obligations.HangIsExact := by
  intro k k' detune x turns h
  cases hnan : fisNaN x with
  | false => exact doubleToFloor_hang_of_settles (settlesWithin_of_not_fisNaN hnan) h
  | true => exact absurd (doubleToFloor_succ_hang.1 h).1 (not_belowFloor_of_fisNaN hnan)

/-- Settles O25. The scan returns the first of the quietest voices out of attack, and no voice as quiet as an inactive one
is active. -/
theorem allocatorPicksQuietestOutOfAttack : Obligations.AllocatorPicksQuietestOutOfAttack := by
  intro p vs hlow _ hset
  refine ⟨_, findFreeVoice_of_set hset, ?_⟩
  obtain hquietest | ⟨hzero, hnone⟩ := quietestVoice_spec p vs
  · refine ⟨hquietest.inRange, fun j hj hattack hlevel => ?_, fun hnone => ?_⟩
    · have hle := hquietest.least j hj ⟨hattack, hlevel⟩
      exact ⟨hquietest.quieter.1, hle, fun hjr => hquietest.first j hjr ⟨hattack, hlevel⟩, not_voiceIsActive_of_fle hle⟩
    · obtain ⟨hattack, hlevel⟩ := hquietest.quieter
      obtain h | h := hnone _ hquietest.inRange
      · rw [h] at hattack
        cases hattack
      · exact absurd hlevel (Bool.eq_false_iff.1 h)
  · refine ⟨by rw [hzero]; exact hlow, fun j hj hattack hlevel => ?_, fun _ => hzero⟩
    exact absurd ⟨hattack, hlevel⟩ (hnone j hj)

/-- Settles O26: a push, a pop and the release scan, each by its lemma on the queue view. -/
theorem queueIsAStack : Obligations.QueueIsAStack := by
  intro fp vs hnotes
  refine ⟨⟨pushNotes fp vs, ?_, queueView_pushNotes fp vs⟩, fun hempty => ?_, fun q rest hq => ?_,
    fun pedal n => queueView_releaseMatching fp pedal n vs⟩
  · exact shiftQueuedNotes_ok.2 ⟨notesSet_take_seven.2 fun j => hnotes j.castSucc, rfl⟩
  · exact nextQueuedNote_ok.2 ⟨notesSet_tail.2 fun j => hnotes j.succ, popNote_of_empty hempty⟩
  · obtain ⟨ws, t, hpop, hpos, ht, rfl, hlow, hws⟩ := nextQueuedNote_of_queueView hnotes hq
    have view := queueView_of_cleared ht hpos hlow hws
    rw [hq] at view
    exact ⟨ws, t, hpop, view, ht, rfl, hlow, hws⟩

/-- Settles O22. In mono mode with a note held the hanging period is that of the retuned voice 0, else that of the started
voice. -/
theorem noteOnHangsWithoutPeriod : Obligations.NoteOnHangsWithoutPeriod := by
  intro ch n vel s i hset hi hhang
  obtain ⟨-, hv⟩ := registersSet_iff.1 hset
  have hnotes (j : Fin 8) : (getVoice s.voices j).written.note = true := note_set_of_voiceSet (hv j)
  suffices hop : noteOnOp (stepKey s) n.toNat vel.toNat s = .error .hang from congrArg (finish s) hop
  by_cases hlegato : s.snapshot.numVoices = 1 ∧ 0 < s.voices.v0.note
  · obtain ⟨hmono, hheld⟩ := hlegato
    obtain rfl : i = 0 := by rwa [if_pos hmono] at hi
    rw [noteOnOp_legato hnotes hmono hheld, restartMonoVoice, hhang]
    rfl
  · rw [noteOnOp_start (hnotes 0) (fun hmono => not_lt.1 fun hheld => hlegato ⟨hmono, hheld⟩) hi, startVoice, hhang]
    rfl

end Sys2Proof.Proofs
end

section
/-!
SUPPORT. Binary32 zeros of either sign: a product with one is a zero, and 1.0 plus one is 1.0 (00_scope.md R8). So a
modulation multiplier without depth is 1.0 (46_render.md R294).
-/

namespace Sys2Proof.Machine

/-- Flushing keeps the sign (92 D4). -/
@[simp] theorem fsign_fflush (x : F32) : fsign (fflush x) = fsign x := by
  obtain hx | hx := fflush_cases x <;> rw [hx]
  exact fsign_fmk _ (by decide)

/-- What is equal to +0.0 is the zero of its sign. -/
theorem eq_fzero_of_feq {x : F32} (h : feq x f0 = true) : x = fzero (fsign x) := by
  have order : forder x = forder f0 := by
    simp only [feq, Bool.and_eq_true, decide_eq_true_eq] at h
    exact h.2
  have mag : fmag x = 0 := by
    rw [← natAbs_forder, order]
    decide
  rw [fzero, ← mag, fmk_fsign_fmag]

/-- The product of a finite value and a zero is a zero. -/
theorem fmul_fzero_of_finite (k : Key) {x : F32} (hx : fisFinite x = true) (neg : Bool) :
    fmul k x (fzero neg) = fzero (fsign x != neg) := by
  have units : fixedMag (fzero neg) = 0 := by cases neg <;> decide
  have sign : fsign (fzero neg) = neg := fsign_fmk neg (by decide)
  have rounded : roundMag 0 149 = 0 := by decide
  have zfin : fisFinite (fzero neg) = true := by cases neg <;> decide
  rw [fmul_of_finite k hx zfin, fflush_fzero, units, sign, Nat.mul_zero, rounded, fsign_fflush]
  exact fflush_fzero _

theorem fadd_fzero_fzero (k : Key) (a b : Bool) : fadd k (fzero a) (fzero b) = fzero (a && b) := by
  cases a <;> cases b <;> exact fadd_eq (by decide +kernel) (by decide) k

theorem fadd_one_fzero (k : Key) (neg : Bool) : fadd k f1 (fzero neg) = f1 := by
  cases neg <;> exact fadd_eq (by decide +kernel) (by decide) k

/-- Without mod wheel and depth the multiplier of a finite shape is 1.0 (46 R294). -/
theorem modulationOf_of_no_depth (k : Key) {shape modWheel depth : F32} (hshape : fisFinite shape = true)
    (hmod : feq modWheel f0 = true) (hdepth : feq depth f0 = true) : modulationOf k shape modWheel depth = f1 := by
  rw [modulationOf, eq_fzero_of_feq hmod, eq_fzero_of_feq hdepth, fadd_fzero_fzero, fmul_fzero_of_finite _ hshape,
    fadd_one_fzero]

end Sys2Proof.Machine
end

section
/-!
SUPPORT. One sample frame: what it leaves of an inactive voice, the registers of its LFO step, and the frame of a machine
with no active voice, which completes (46_render.md R293, R294).
-/

namespace Sys2Proof.Machine

open Sys2Proof.Claims

/-! ## Inactive voices -/

theorem tickVoice_inactive {s : State} {k : Key} {v u : Voice} (h : tickVoice s k v = .ok u)
    (hv : voiceIsActive v = false) : u = v :=
  (if_neg (ne_true_of_eq_false hv)).mp (tickVoice_ok h).2

theorem mixVoice_inactive {s : State} {x : F32} {k : Key} {lr mix : F32 × F32} {v u : Voice}
    (h : mixVoice s x k lr v = .ok (mix, u)) (hv : voiceIsActive v = false) : mix = lr ∧ u = v :=
  (if_neg (ne_true_of_eq_false hv)).mp (mixVoice_ok h).2

/-- The LFO step leaves an inactive voice as it is, tick or no tick (46 R294). -/
theorem lfoStepOp_inactive {k : Key} {s u : State} {i : Fin 8} (h : lfoStepOp k s = .ok u)
    (hv : voiceIsActive (getVoice s.voices i) = false) : getVoice u.voices i = getVoice s.voices i := by
  rcases (lfoStepOp_ok h).2 with ⟨-, rfl⟩ | ⟨-, htick⟩
  · rfl
  · obtain ⟨-, vs, hvs, rfl⟩ := lfoTick_ok htick
    exact tickVoice_inactive (hvs i) hv

/-! ## The LFO step of a frame -/

/-- The LFO step is a tick when at most 1 was left to count, and else counts down by one (46 R294). A tick reads the
countdown, the phase and the smoothed filter modulation before it writes them, so it changes two set-bits. -/
theorem lfoStepOp_cases {k : Key} {s u : State} (h : lfoStepOp k s = .ok u) :
    (s.lfoStep ≤ 1 ∧ TickedRegisters s u ∧ u.written = { s.written with vibratoMod := true, pwm := true }) ∨
      (1 < s.lfoStep ∧ u = { s with lfoStep := s.lfoStep - 1 }) := by
  obtain ⟨hset, ⟨hleft, rfl⟩ | ⟨hover, htick⟩⟩ := lfoStepOp_ok h
  · exact .inr ⟨by omega, rfl⟩
  · obtain ⟨hread, vs, -, rfl⟩ := lfoTick_ok htick
    refine .inl ⟨by omega, tickRegisters_tickedRegisters _ s vs, ?_⟩
    exact (tickRegisters_written_of_set hread (8 :: k)).trans (by simp only [hset])

/-- After its LFO step a frame writes the noise seed, the voices and the output only (46 R293). -/
theorem frame_lfoStepOp {k : Key} {c : Nat} {s t : State} (h : frame k c s = .ok t) :
    ∃ u seed vs o, lfoStepOp (10 :: k) s = .ok u ∧ t = { u with noiseSeed := seed, voices := vs, out := o } := by
  obtain ⟨u, _, _, _, hu, -, -, rfl⟩ := frame_ok h
  exact ⟨u, _, _, _, hu, rfl⟩

/-- A state with the same fields outside rendering differs in the render registers, the voices, the output and the
set-bits only. -/
theorem eq_of_sameOutsideRender {s t : State} (h : SameOutsideRender s t) :
    t = { s with
      lfoStep := t.lfoStep, lfo := t.lfo, vibratoMod := t.vibratoMod, pwm := t.pwm, filterZip := t.filterZip,
      noiseSeed := t.noiseSeed, voices := t.voices, out := t.out, written := t.written } := by
  rw [← h.params, ← h.sampleRate, ← h.blockSize, ← h.lifecycle, ← h.fault, ← h.pitchBend, ← h.sustainPedalPressed,
    ← h.modWheel, ← h.lastNote, ← h.notifications, ← h.snapshot, ← h.block, ← h.commands, ← h.reply, ← h.draws]

/-! ## A silent frame -/

/-- No voice is active, and every level holds a value (41 R165). -/
def Silent (vs : VoiceFile) : Prop :=
  ∀ i, (getVoice vs i).env.levelSet = true ∧ voiceIsActive (getVoice vs i) = false

theorem readActive_of_inactive {v : Voice} (h : v.env.levelSet = true ∧ voiceIsActive v = false) :
    readActive v = .ok false := readActive_ok.2 h

/-- A tick of a silent machine completes and writes the LFO registers only (46 R294). -/
theorem lfoTick_of_silent (k : Key) {s : State} (hset : tickSet s.written = true) (hs : Silent s.voices) :
    lfoTick k s = .ok (tickRegisters (8 :: k) s) := by
  have voices (t : State) (ht : Silent t.voices) :
      updateVoices (fun i v => tickVoice t (i.val :: k) v) t.voices = .ok t.voices :=
    updateVoices_ok.2 fun i => by rw [tickVoice, readActive_of_inactive (ht i)]; rfl
  rw [lfoTick, hset, need_true, ok_bind]
  dsimp only
  rw [voices (tickRegisters (8 :: k) s) hs]
  rfl

theorem lfoStepOp_of_silent (k : Key) {s : State} (hwritten : s.written = EngineWritten.all) (hs : Silent s.voices) :
    ∃ u, lfoStepOp k s = .ok u ∧ u.voices = s.voices := by
  have hstep : s.written.lfoStep = true := by rw [hwritten]; rfl
  have htick : tickSet s.written = true := by rw [hwritten]; rfl
  rw [lfoStepOp, hstep, need_true, ok_bind]
  dsimp only
  split
  · exact ⟨_, lfoTick_of_silent k htick hs, rfl⟩
  · exact ⟨_, rfl, rfl⟩

/-- A silent frame completes: after the LFO step and the noise draw it writes the scaled mix of nothing (46 R293). -/
theorem frame_of_silent (k : Key) (c : Nat) {s : State} (hwritten : s.written = EngineWritten.all)
    (hs : Silent s.voices) :
    ∃ u, lfoStepOp (10 :: k) s = .ok u ∧ u.voices = s.voices ∧
      frame k c s = .ok (writeFrame (12 :: k) c (f0, f0) { u with noiseSeed := noiseStep u.noiseSeed }) := by
  obtain ⟨u, hu, hvoices⟩ := lfoStepOp_of_silent (10 :: k) hwritten hs
  have hseed : u.written.noiseSeed = true := by
    rw [(lfoStepOp_sameOutsideTick hu).noiseSeed, hwritten]
    rfl
  have hnoise := (frameNoise_ok (k := 11 :: k)).2 ⟨hseed, rfl, rfl⟩
  have hmix (x : F32) :
      foldVoices (fun i lr v => mixVoice u x (i.val :: k) lr v) (f0, f0) u.voices = .ok ((f0, f0), u.voices) :=
    foldVoices_id fun i => by rw [hvoices, mixVoice, readActive_of_inactive (hs i)]; rfl
  refine ⟨u, hu, hvoices, ?_⟩
  rw [frame, hu, ok_bind, hnoise, ok_bind]
  dsimp only
  rw [hmix]
  rfl

/-- The mix +0.0 scaled by a finite output level without a minus sign is +0.0 on every channel (46 R293). -/
theorem writeFrame_zero_out (k : Key) (c : Nat) {s : State} (hfin : fisFinite s.snapshot.outputLevel = true)
    (hsign : fsign s.snapshot.outputLevel = false) :
    (writeFrame k c (f0, f0) s).out = outFrame c f0 f0 f0 s.out := by
  have scaled (j : Key) : fmul j f0 s.snapshot.outputLevel = f0 := by
    rw [fmul_zero_of_finite j hfin, fsign_fflush, hsign]
    rfl
  have half (j : Key) : fmul j f0 fHalf = f0 := fmul_zero_of_finite j (by decide)
  simp only [writeFrame, scaled, fadd_zero_zero, half]

end Sys2Proof.Machine
end

section
/-!
SUPPORT. The segment prologue and epilogue in the terms of the claims, voice by voice (46_render.md R291, R292, R296).
-/

namespace Sys2Proof.Machine

open Sys2Proof.Claims

theorem level_set_of_voiceSet {fp : Bool} {v : Voice} (h : voiceSet fp v = true) : v.env.levelSet = true := by
  obtain ⟨-, -, -, -, -, -, -, henv, -⟩ := voiceSet_iff.1 h
  exact (envSet_iff.1 henv).1

/-- The copies of a segment in one record: those of the filter only when it is present (46 R291). -/
theorem copySegmentRegisters_eq (s : State) (v : Voice) :
    copySegmentRegisters s v = { v with
      glideRate := s.snapshot.glideRate
      filterQ := if s.params.filterPresent then s.snapshot.filterQ else v.filterQ
      pitchBend := if s.params.filterPresent then s.pitchBend else v.pitchBend
      filterEnvDepth := if s.params.filterPresent then s.snapshot.filterEnvDepth else v.filterEnvDepth
      written := { v.written with
        glideRate := true
        filterQ := s.params.filterPresent || v.written.filterQ
        pitchBend := s.params.filterPresent || v.written.pitchBend
        filterEnvDepth := s.params.filterPresent || v.written.filterEnvDepth } } := by
  unfold copySegmentRegisters
  cases s.params.filterPresent <;> rfl

/-- The prologue of a voice completes when the level holds a value and, of an active voice, the period does (46 R291). -/
theorem prologueVoice_completes {s : State} (k : Key) {v : Voice} (hlevel : v.env.levelSet = true)
    (hbend : s.written.pitchBend = true) (hperiod : voiceIsActive v = true → v.written.period = true) :
    ∃ u, prologueVoice s k v = .ok u := by
  cases hactive : voiceIsActive v with
  | true =>
    have periods := (updatePeriod_ok (k := k)).2 ⟨hperiod hactive, hbend, rfl⟩
    exact ⟨_, prologueVoice_ok.2 ⟨hlevel, (if_pos hactive).mpr ⟨_, periods, rfl⟩⟩⟩
  | false => exact ⟨v, prologueVoice_ok.2 ⟨hlevel, (if_neg (ne_true_of_eq_false hactive)).mpr rfl⟩⟩

/-- Without the filter the epilogue leaves it alone, as the claim says (46 R296). -/
theorem epilogueVoice_eq_closedVoice (fp : Bool) (v : Voice) : epilogueVoice fp v = closedVoice fp v := by
  cases fp <;> rfl

end Sys2Proof.Machine
end

section
/-!
SUPPORT. A step in the terms of the claims: which unit of a block it does, and what `exec` keeps of the scheduler's
registers and the draw counter (46_render.md R297; 47_scheduler_host.md R320 to R324).
-/

namespace Sys2Proof.Machine

open Sys2Proof.Claims

/-! ## What is due -/

theorem step_of_block {s : State} {b : Block} (hf : s.fault = none) (hb : s.block = some b) :
    step s = blockStep b s := by
  simp only [step, liveStep, hf, hb]

theorem step_of_no_block {s : State} (hf : s.fault = none) (hb : s.block = none) : step s = commandStep s := by
  simp only [step, liveStep, hf, hb]

/-- The step applies the event that is due (47 R320). -/
theorem step_of_event_due {s : State} {b : Block} {e : Event} (hf : s.fault = none) (hb : s.block = some b)
    (he : b.events[b.evIndex]? = some e) (hdue : e.offset ≤ b.cursor) : step s = applyEvent e.bytes s := by
  rw [step_of_block hf hb, blockStep_of_some he, if_neg (Nat.not_lt.2 hdue)]

/-! ## What `exec` keeps -/

/-- `mapNext` is `onNext` of a function that does the same to the next state there is. -/
theorem mapNext_eq_onNext {f g : State → State} {r : Result} (h : ∀ t, r = .next t → f t = g t) :
    mapNext f r = onNext g r := by
  cases r with
  | next t => exact congrArg _ (h t rfl)
  | fault _ => rfl
  | refused _ => rfl

/-- An event changes neither the scheduler's registers nor the draw counter (44 R230; log 7). -/
theorem exec_event_keeps_block {i : Instr} {s t : State} (hi : encodeCommand i = none) (h : exec i s = .next t) :
    t.block = s.block ∧ t.draws = s.draws := by
  rcases event_next hi h with rfl | ⟨_, _, _, _, _, _, _, rfl⟩ <;> exact ⟨rfl, rfl⟩

/-- No host command changes the draw counter (log 7). -/
theorem CommandEffect.draws {s t : State} {c : HostCommand} (h : CommandEffect s c t) : t.draws = s.draws := by
  cases h <;> rfl

/-- After an event that kept the block and the draw counter, `evIndex` has moved on by one (47 R320). -/
theorem afterEvent_of_block {s t : State} {b : Block} (hb : s.block = some b)
    (ht : t.block = s.block ∧ t.draws = s.draws) :
    afterEvent t = { t with block := some { b with evIndex := b.evIndex + 1 }, draws := s.draws + 1 } := by
  obtain ⟨hblock, hdraws⟩ := ht
  rw [afterEvent, hblock, hb, nextDraw, ← hdraws]
  rfl

/-! ## The frame that is due -/

/-- A segment starts where the model's scheduler says it starts (47 R320, R322). -/
theorem segmentStart_of_startsAt {b : Block} {start : Nat} (h : SegmentStartsAt b start) : segmentStart b = start := by
  unfold SegmentStartsAt at h
  unfold segmentStart
  cases hev : b.evIndex with
  | zero => simpa [hev, eq_comm] using h
  | succ j =>
    obtain ⟨e, he, rfl⟩ : ∃ e, b.events[j]? = some e ∧ start = e.offset := by simpa [hev] using h
    simp only [he]

/-- The frame at the cursor is the unit of its segment (46 R297; 47 R322). -/
theorem segmentFrame_eq_segmentUnit (k : Key) {b : Block} {start stop : Nat} (hstart : SegmentStartsAt b start)
    (hstop : SegmentStopsAt b stop) (s : State) :
    segmentFrame k b s = segmentUnit (0 :: k) (1 :: k) start stop b s := by
  rw [← segmentStart_of_startsAt hstart, ← segmentEnd_of_stopsAt hstop]
  exact (bind_assoc (m := Except Halt) ..).symm

/-- Rendering keeps the block and the draw counter, so `cursor` moves on by one from the block of the step (10 R38). -/
theorem afterFrame_of_segmentFrame {k : Key} {s t : State} {b : Block} (hb : s.block = some b)
    (h : segmentFrame k b s = .ok t) :
    afterFrame t = { t with block := some { b with cursor := b.cursor + 1 }, draws := s.draws + 1 } := by
  obtain ⟨same, -⟩ := segmentFrame_frame h
  rw [afterFrame, same.block, hb, nextDraw, ← same.draws]
  rfl

theorem step_rendersFrame {s : State} {b : Block} {start stop : Nat} (hf : s.fault = none) (hb : s.block = some b)
    (hstart : SegmentStartsAt b start) (hstop : SegmentStopsAt b stop) (hc : b.cursor < stop) :
    RendersFrame start stop b s := by
  have hstep : step s = frameStep b s := by
    rw [step_of_block hf hb, blockStep_of_cursor_lt (by rwa [segmentEnd_of_stopsAt hstop])]
  refine ⟨0 :: stepKey s, 1 :: stepKey s, ?_⟩
  rw [← segmentFrame_eq_segmentUnit (stepKey s) hstart hstop, hstep, frameStep]
  obtain ⟨t, ht, -⟩ | ⟨ht, -⟩ := finish_of_ne_hang (s := s) (segmentFrame_ne_hang (stepKey s) b s)
  · rw [ht]
    exact congrArg _ (afterFrame_of_segmentFrame hb ht)
  · rw [ht]
    rfl

end Sys2Proof.Machine
end

section
/-!
PROOFS. The statements of the family of 46_render.md.
-/

namespace Sys2Proof.Proofs

open Sys2Proof.Machine Sys2Proof.Claims

/-- Settles O35: neither the LFO step nor the mix touches an inactive voice. -/
theorem frameLeavesInactiveVoices : Obligations.FrameLeavesInactiveVoices := by
  intro k channels s t i h hv
  obtain ⟨u, x, lr, vs, hu, -, hmix, rfl⟩ := frame_ok h
  obtain ⟨_, _, hm⟩ := foldVoices_ok hmix i
  rw [lfoStepOp_inactive hu hv] at hm
  exact (mixVoice_inactive hm hv).2

/-- Settles O36: the frame of a silent machine writes +0.0 scaled by the output level. -/
theorem silentFrameWritesZero : Obligations.SilentFrameWritesZero := by
  intro k channels s hset hv hfin hsign
  obtain ⟨hwritten, hvoices⟩ := registersSet_iff.1 hset
  obtain ⟨u, hu, hsame, hframe⟩ :=
    frame_of_silent k channels hwritten fun i => ⟨level_set_of_voiceSet (hvoices i), hv i⟩
  obtain ⟨same, -, hout⟩ := lfoStepOp_frame hu
  rw [← same.snapshot] at hfin hsign
  refine ⟨_, hframe, (writeFrame_voices ..).trans hsame, ?_⟩
  rw [← hout]
  exact writeFrame_zero_out _ _ hfin hsign

/-- Settles O39: the countdown and the tick are those of the frame's LFO step, after which the frame writes no LFO
register and no set-bit. -/
theorem frameCountsLfoDown : Obligations.FrameCountsLfoDown := by
  intro k channels s t h
  have same := eq_of_sameOutsideRender (frame_frame h).1
  obtain ⟨u, seed, vs, o, hu, rfl⟩ := frame_lfoStepOp h
  obtain ⟨hcount, hticked, hwritten⟩ | ⟨hcount, rfl⟩ := lfoStepOp_cases hu
  · rw [if_pos hcount, if_pos hcount, ← hwritten]
    exact ⟨hticked.1, fun _ => hticked, fun hc => absurd hcount hc.not_ge, same⟩
  · rw [if_neg hcount.not_ge, if_neg hcount.not_ge]
    exact ⟨rfl, fun hc => absurd hc hcount.not_ge, fun _ => ⟨rfl, rfl, rfl, rfl⟩, rfl⟩

/-- Settles O40: both multipliers are modulations by a finite shape without depth. -/
theorem lfoIsNeutralWithoutDepth : Obligations.LfoIsNeutralWithoutDepth := by
  intro k s hmod hvibrato hpwm hshape
  exact ⟨modulationOf_of_no_depth _ hshape hmod hvibrato, modulationOf_of_no_depth _ hshape hmod hpwm⟩

/-- Settles O41: each voice's prologue completes, and loads the voice when it is active. -/
theorem prologueLoadsActiveVoices : Obligations.PrologueLoadsActiveVoices := by
  intro k s hset hperiod
  obtain ⟨hwritten, hv⟩ := registersSet_iff.1 hset
  have hbend : s.written.pitchBend = true := by rw [hwritten]; rfl
  obtain ⟨vs, hvs⟩ := updateVoices_total fun i =>
    prologueVoice_completes (i.val :: k) (level_set_of_voiceSet (hv i)) hbend (hperiod i)
  refine ⟨vs, by rw [prologue, hvs]; rfl, ?_⟩
  rintro i _ rfl
  obtain ⟨-, hvoice⟩ := prologueVoice_ok.1 (updateVoices_ok.1 hvs i)
  split
  next hactive =>
    obtain ⟨w, hw, hloaded⟩ := (if_pos hactive).mp hvoice
    obtain ⟨-, -, rfl⟩ := updatePeriod_ok.1 hw
    exact ⟨_, _, _, rfl, hloaded.trans (copySegmentRegisters_eq s _)⟩
  next hinactive => exact (if_neg hinactive).mp hvoice

/-- Settles O42: every level holds a value, so the epilogue completes and closes each voice. -/
theorem epilogueResetsInactiveVoices : Obligations.EpilogueResetsInactiveVoices := by
  intro s hset
  obtain ⟨-, hv⟩ := registersSet_iff.1 hset
  refine ⟨_, epilogue_ok.2 ⟨fun i => level_set_of_voiceSet (hv i), rfl⟩, fun i => ?_⟩
  rw [getVoice_mapVoices, epilogueVoice_eq_closedVoice]

/-- Settles O8, by what is due: an event, a frame, the end of the block, a command, or nothing. -/
theorem stepRunsDecodedInstruction : Obligations.StepRunsDecodedInstruction := by
  refine ⟨fun s b e i hf hb he hdue hdecode => ?_, fun s b e hf hb he hdue hlong => ?_, fun s b start stop =>
    step_rendersFrame, fun s b hf hb he hdone => ?_, fun s c rest hf hb hc => ?_, fun s hf hb hc => ?_⟩
  · rw [step_of_event_due hf hb he hdue, applyEvent, hdecode]
    exact mapNext_eq_onNext fun t ht =>
      afterEvent_of_block hb (exec_event_keeps_block (encodeCommand_of_decode hdecode) ht)
  · obtain ⟨-, -, -, long, -⟩ := recordLengthDecidesFirst
    rw [step_of_event_due hf hb he hdue, applyEvent, long _ hlong, ← afterEvent_of_block hb ⟨rfl, rfl⟩]
  · rw [step_of_block hf hb, blockStep_of_none he, if_neg (Nat.not_lt.2 hdone)]
    rfl
  · rw [step_of_no_block hf hb, commandStep, hc]
    refine mapNext_eq_onNext fun t ht => ?_
    rw [nextDraw, (execCommand_next ht).2.draws]
  · rw [step_of_no_block hf hb, commandStep, hc]

end Sys2Proof.Proofs
end

section
/-!
SUPPORT. The scheduler's invariant field by field, and the two ways in which a block goes on: past a frame and past an
event (10_state.md R38; 20_memory.md R82; 47_scheduler_host.md R320, R322, R325, R326).
-/

namespace Sys2Proof.Machine

/-! ## The operands of a block -/

theorem channelsLegal_iff {channels : Nat} : channelsLegal channels = true ↔ channels = 1 ∨ channels = 2 := by
  simp [channelsLegal]

theorem eventsNonempty_iff {events : List Event} : eventsNonempty events = true ↔ ∀ e ∈ events, e.bytes ≠ [] := by
  simp [eventsNonempty]

theorem eventsInRange_iff {frames : Nat} {events : List Event} :
    eventsInRange frames events = true ↔ ∀ e ∈ events, e.offset < frames := by
  simp [eventsInRange]

/-- Neighbours in order are all in order (47 R325). -/
theorem eventsOrdered_iff {events : List Event} :
    eventsOrdered events = true ↔ events.Pairwise fun a b => a.offset ≤ b.offset := by
  have : IsTrans Event fun a b => a.offset ≤ b.offset := ⟨fun _ _ _ => Nat.le_trans⟩
  rw [← List.isChain_iff_pairwise]
  induction events using eventsOrdered.induct with
  | case1 => simp [eventsOrdered]
  | case2 a => simp [eventsOrdered]
  | case3 a b rest ih =>
    rw [eventsOrdered, Bool.and_eq_true, decide_eq_true_eq, List.isChain_cons_cons]
    exact and_congr_right fun _ => ih

theorem blockOperandsLegal_iff {b : Block} :
    blockOperandsLegal b = true ↔
      channelsLegal b.channels = true ∧ eventsNonempty b.events = true ∧ eventsInRange b.frames b.events = true ∧
        eventsOrdered b.events = true := by
  simp only [blockOperandsLegal, Bool.and_eq_true, and_assoc]

/-- No reason to refuse a block is left exactly when its snapshot and its operands are legal (47 R320, R325). -/
theorem blockRefusal_eq_none {fp : Bool} {p : Snapshot} {events : List Event} {frames channels : Nat} :
    blockRefusal fp p events frames channels = none ↔
      snapshotLegal fp p = true ∧ blockOperandsLegal (startBlock events frames channels) = true := by
  rw [blockOperandsLegal_iff]
  unfold blockRefusal eventsRefusal startBlock
  split_ifs <;> simp_all

/-! ## Segments -/

/-- The segment in progress ends inside the block (47 R320, R325). -/
theorem segmentEnd_le {b : Block} (h : blockOperandsLegal b = true) : segmentEnd b ≤ b.frames := by
  obtain ⟨-, -, hrange, -⟩ := blockOperandsLegal_iff.1 h
  cases he : nextEvent b with
  | some e =>
    rw [segmentEnd_of_some he]
    exact (eventsInRange_iff.1 hrange e (List.mem_of_getElem? he)).le
  | none => exact (segmentEnd_of_none he).le

/-- After an event the next segment starts at its offset (47 R320, R322). -/
theorem segmentStart_advanceEvent {b : Block} {e : Event} (he : nextEvent b = some e) :
    segmentStart (advanceEvent b) = e.offset := by
  simp only [segmentStart, advanceEvent, show b.events[b.evIndex]? = some e from he]

/-- The segment after an event ends no earlier than the event's offset (47 R325). -/
theorem le_segmentEnd_advanceEvent {b : Block} {e : Event} (h : blockOperandsLegal b = true)
    (he : nextEvent b = some e) : e.offset ≤ segmentEnd (advanceEvent b) := by
  obtain ⟨-, -, hrange, hordered⟩ := blockOperandsLegal_iff.1 h
  cases hn : nextEvent (advanceEvent b) with
  | some f =>
    obtain ⟨hi, rfl⟩ := List.getElem?_eq_some_iff.1 he
    obtain ⟨hj, rfl⟩ := List.getElem?_eq_some_iff.1 hn
    rw [segmentEnd_of_some hn]
    exact List.pairwise_iff_getElem.1 (eventsOrdered_iff.1 hordered) _ _ hi hj (Nat.lt_succ_self _)
  | none =>
    rw [segmentEnd_of_none hn]
    exact (eventsInRange_iff.1 hrange e (List.mem_of_getElem? he)).le

/-! ## The invariant -/

/-- What `schedulerOk` says of the block in progress. -/
structure SchedulerSound (s : State) (b : Block) : Prop where
  ready      : s.lifecycle = .ready
  snapshot   : snapshotLegal s.params.filterPresent s.snapshot = true
  operands   : blockOperandsLegal b = true
  evIndex    : b.evIndex ≤ b.events.length
  afterStart : segmentStart b ≤ b.cursor
  beforeEnd  : b.cursor ≤ segmentEnd b
  ch0        : s.out.ch0.length = b.cursor
  ch1        : s.out.ch1.length = if b.channels = 2 then b.cursor else 0

theorem schedulerOk_iff {s : State} : schedulerOk s = true ↔ ∀ b, s.block = some b → SchedulerSound s b := by
  unfold schedulerOk
  cases hb : s.block with
  | none => simp
  | some b =>
    simp only [OutBuffers.wf, cursorsInRange, Bool.and_eq_true, decide_eq_true_eq, beq_iff_eq, Option.some.injEq,
      forall_eq']
    constructor
    · rintro ⟨⟨⟨⟨h1, h2⟩, h3⟩, ⟨h4, h5⟩, h6⟩, h7, h8⟩
      exact ⟨h1, h2, h3, h4, h5, h6, h7, h8⟩
    · rintro ⟨h1, h2, h3, h4, h5, h6, h7, h8⟩
      exact ⟨⟨⟨⟨h1, h2⟩, h3⟩, ⟨h4, h5⟩, h6⟩, h7, h8⟩

theorem schedulerOk_of_no_block {s : State} (h : s.block = none) : schedulerOk s = true :=
  schedulerOk_iff.2 fun b hb => by rw [h] at hb; cases hb

theorem schedulerOk_of_block {s : State} {b : Block} (hb : s.block = some b) (h : SchedulerSound s b) :
    schedulerOk s = true :=
  schedulerOk_iff.2 fun c hc => by rw [hb] at hc; cases hc; exact h

/-- Past a rendered frame, whose elements stand in the output (47 R320; 20 R82). -/
theorem SchedulerSound.afterFrame {s u : State} {b : Block} (h : SchedulerSound s b)
    (hc : b.cursor < segmentEnd b) (hu : segmentFrame (stepKey s) b s = .ok u) :
    SchedulerSound (afterFrame u) (advanceCursor b) := by
  have same := (segmentFrame_frame hu).1
  obtain ⟨left, right, mono, hout⟩ := segmentFrame_out hu
  obtain ⟨hch0, hch1⟩ := outFrame_wf h.ch0 h.ch1 left right mono
  rw [← hout] at hch0 hch1
  exact {
    ready := same.lifecycle.trans h.ready
    snapshot := by
      change snapshotLegal u.params.filterPresent u.snapshot = true
      rw [same.params, same.snapshot]
      exact h.snapshot
    operands := h.operands
    evIndex := h.evIndex
    afterStart := Nat.le_succ_of_le h.afterStart
    beforeEnd := hc
    ch0 := hch0
    ch1 := hch1 }

/-- Past an event that kept what the invariant speaks of but `evIndex` (44 R230; 47 R320). -/
theorem SchedulerSound.afterEvent {s u : State} {b : Block} {e : Event} (h : SchedulerSound s b)
    (he : nextEvent b = some e) (hc : e.offset ≤ b.cursor) (hlife : u.lifecycle = s.lifecycle)
    (hparams : u.params = s.params) (hsnapshot : u.snapshot = s.snapshot) (hout : u.out = s.out) :
    SchedulerSound u (advanceEvent b) where
  ready := hlife.trans h.ready
  snapshot := by rw [hparams, hsnapshot]; exact h.snapshot
  operands := h.operands
  evIndex := (List.getElem?_eq_some_iff.1 he).1
  afterStart := by rw [segmentStart_advanceEvent he]; exact hc
  beforeEnd := by
    refine h.beforeEnd.trans ?_
    rw [segmentEnd_of_some he]
    exact le_segmentEnd_advanceEvent h.operands he
  ch0 := by rw [hout]; exact h.ch0
  ch1 := by rw [hout]; exact h.ch1

/-- The start of an accepted block (47 R321). -/
theorem SchedulerSound.acceptBlock {s : State} {p : Snapshot} {events : List Event} {frames channels : Nat}
    (hr : s.lifecycle = .ready) (hl : blockRefusal s.params.filterPresent p events frames channels = none) :
    SchedulerSound (acceptBlock p events frames channels s) (startBlock events frames channels) := by
  obtain ⟨hsnapshot, hoperands⟩ := blockRefusal_eq_none.1 hl
  exact {
    ready := hr
    snapshot := hsnapshot
    operands := hoperands
    evIndex := Nat.zero_le _
    afterStart := le_rfl
    beforeEnd := Nat.zero_le _
    ch0 := rfl
    ch1 := (ite_self _).symm }

/-- A host command is taken between blocks and leaves none in progress but the one it starts (47 R320, R330 to R332). -/
theorem CommandEffect.schedulerOk {s t : State} {c : HostCommand} (h : CommandEffect s c t) (hb : s.block = none) :
    schedulerOk t = true := by
  cases h with
  | accepted p es n c hr hl => exact schedulerOk_of_block rfl (.acceptBlock hr hl)
  | _ => exact schedulerOk_of_no_block hb

/-! ## The block after a step -/

/-- Applying an event moves `evIndex` on and writes neither what the invariant speaks of nor the output (44 R230). -/
theorem applyEvent_keeps {bytes : List Byte} {s t : State} (h : applyEvent bytes s = .next t) :
    t.lifecycle = s.lifecycle ∧ t.params = s.params ∧ t.snapshot = s.snapshot ∧ t.out = s.out ∧
      t.block = s.block.map advanceEvent := by
  rcases applyEvent_next h with rfl | ⟨_, _, _, _, _, _, _, rfl⟩ <;> exact ⟨rfl, rfl, rfl, rfl, rfl⟩

/-- Rendering a frame moves `cursor` on (10 R38). -/
theorem block_afterFrame {k : Key} {s u : State} {b : Block} (hb : s.block = some b) (hu : segmentFrame k b s = .ok u) :
    (afterFrame u).block = some (advanceCursor b) := by
  rw [afterFrame_of_segmentFrame hb hu]
  rfl

end Sys2Proof.Machine
end

section
/-!
SUPPORT. The operands of the host commands in the terms of the claims: the legal snapshots (10_state.md R45), the
reasons to refuse a block (47_scheduler_host.md R320, R325) and the rounded sample rate (00_scope.md R14; 47 R330).
-/

namespace Sys2Proof.Machine

open Sys2Proof.Claims

/-! ## Legal snapshots -/

theorem finitePositive_iff {x : F32} : finitePositive x = true ↔ FinitePositive x := Bool.and_eq_true_iff

theorem inUnitOpen_iff {x : F32} : inUnitOpen x = true ↔ InUnitOpen x := Bool.and_eq_true_iff

theorem inUnitClosed_iff {x : F32} : inUnitClosed x = true ↔ InUnitClosed x := Bool.and_eq_true_iff

theorem filterFieldsLegal_iff {p : Snapshot} :
    filterFieldsLegal p = true ↔
      InUnitOpen p.filterAttack ∧ InUnitOpen p.filterDecay ∧ InUnitOpen p.filterRelease ∧
        InUnitClosed p.filterSustain ∧ FinitePositive p.filterQ ∧ fisFinite p.filterKeyTracking = true ∧
        fisFinite p.filterLFODepth = true ∧ fisFinite p.filterEnvDepth = true ∧
        fisFinite p.velocitySensitivity = true := by
  simp only [filterFieldsLegal, Bool.and_eq_true, and_assoc, inUnitOpen_iff, inUnitClosed_iff, finitePositive_iff]

/-- The model's test of a snapshot accepts the legal ones (10 R45; log 28). -/
theorem snapshotLegal_iff {fp : Bool} {p : Snapshot} : snapshotLegal fp p = true ↔ LegalSnapshot fp p := by
  have optional : (!fp || filterFieldsLegal p) = true ↔ (fp = true → filterFieldsLegal p = true) := by
    cases fp <;> simp
  simp only [snapshotLegal, Bool.and_eq_true, optional, filterFieldsLegal_iff, imp_and, decide_eq_true_eq,
    and_assoc, inUnitOpen_iff, inUnitClosed_iff, finitePositive_iff]
  constructor
  · rintro ⟨voices, voices', glide, glide', wave, wave', tune, detune, attack, decay, release, sustain, rate, inc, inc',
      mix, trim, noise, level, bend, vibrato, pwm, fattack, fdecay, frelease, fsustain, fq, ftracking, flfo, fdepth,
      fvel⟩
    exact {
      numVoices := ⟨voices, voices'⟩
      glideMode := by omega
      lfoWaveform := by omega
      tune := tune
      detune := detune
      envAttack := attack
      envDecay := decay
      envRelease := release
      envSustain := sustain
      glideRate := rate
      lfoInc := ⟨inc, inc'⟩
      oscMix := mix
      volumeTrim := trim
      noiseMix := noise
      outputLevel := level
      glideBend := bend
      vibrato := vibrato
      pwmDepth := pwm
      filterAttack := fattack
      filterDecay := fdecay
      filterRelease := frelease
      filterSustain := fsustain
      filterQ := fq
      filterKeyTracking := ftracking
      filterLFODepth := flfo
      filterEnvDepth := fdepth
      velocitySensitivity := fvel }
  · intro h
    have glide := h.glideMode
    have wave := h.lfoWaveform
    exact ⟨h.numVoices.1, h.numVoices.2, by omega, by omega, by omega, by omega, h.tune, h.detune, h.envAttack,
      h.envDecay, h.envRelease, h.envSustain, h.glideRate, h.lfoInc.1, h.lfoInc.2, h.oscMix, h.volumeTrim, h.noiseMix,
      h.outputLevel, h.glideBend, h.vibrato, h.pwmDepth, h.filterAttack, h.filterDecay, h.filterRelease,
      h.filterSustain, h.filterQ, h.filterKeyTracking, h.filterLFODepth, h.filterEnvDepth, h.velocitySensitivity⟩

/-! ## PROCESS_BLOCK -/

section
variable {s : State} {p : Snapshot} {events : List Event} {frames channels : Nat} (hf : s.fault = none)
  (hr : s.lifecycle = .ready)
include hf hr

/-- A READY core accepts a block that it has no reason to refuse (47 R320). -/
theorem exec_processBlock_accepted (h : blockRefusal s.params.filterPresent p events frames channels = none) :
    exec (.processBlock p events frames channels) s = .next (acceptBlock p events frames channels s) := by
  simp only [exec, execProcessBlock, unlessStuck_of_none hf, if_pos hr, h]

/-- A READY core refuses a block with the first reason that applies (47 R320, R325). -/
theorem exec_processBlock_refused {reason : RefuseReason}
    (h : blockRefusal s.params.filterPresent p events frames channels = some reason) :
    exec (.processBlock p events frames channels) s = .next { s with reply := .refused reason } := by
  simp only [exec, execProcessBlock, unlessStuck_of_none hf, if_pos hr, h]
  rfl

end

/-! ## The reasons in order -/

section
variable {fp : Bool} {p : Snapshot} {events : List Event} {frames channels : Nat}

theorem blockRefusal_paramRange (h : ¬ LegalSnapshot fp p) :
    blockRefusal fp p events frames channels = some .paramRange := by
  rw [← snapshotLegal_iff] at h
  simp [blockRefusal, h]

section
variable (hp : LegalSnapshot fp p)
include hp

theorem blockRefusal_channels (h : ¬ (channels = 1 ∨ channels = 2)) :
    blockRefusal fp p events frames channels = some .channels := by
  rw [← channelsLegal_iff] at h
  simp [blockRefusal, snapshotLegal_iff.2 hp, h]

/-- With a legal snapshot and legal channels the event list decides (47 R320). -/
theorem blockRefusal_events (h : channels = 1 ∨ channels = 2) :
    blockRefusal fp p events frames channels = eventsRefusal events frames := by
  simp [blockRefusal, snapshotLegal_iff.2 hp, channelsLegal_iff.2 h]

end

theorem eventsRefusal_empty (h : ∃ e ∈ events, e.bytes = []) : eventsRefusal events frames = some .eventEmpty := by
  have empty : eventsNonempty events ≠ true := fun hn => by
    obtain ⟨e, he, hb⟩ := h
    exact eventsNonempty_iff.1 hn e he hb
  simp [eventsRefusal, empty]

section
variable (hne : ∀ e ∈ events, e.bytes ≠ [])
include hne

theorem eventsRefusal_range (h : ∃ e ∈ events, frames ≤ e.offset) :
    eventsRefusal events frames = some .eventRange := by
  have late : eventsInRange frames events ≠ true := fun hr => by
    obtain ⟨e, he, hb⟩ := h
    exact absurd (eventsInRange_iff.1 hr e he) hb.not_gt
  simp [eventsRefusal, eventsNonempty_iff.2 hne, late]

theorem eventsRefusal_order (hrange : ∀ e ∈ events, e.offset < frames)
    (h : ¬ events.Pairwise fun a b => a.offset ≤ b.offset) : eventsRefusal events frames = some .eventOrder := by
  rw [← eventsOrdered_iff] at h
  simp [eventsRefusal, eventsNonempty_iff.2 hne, eventsInRange_iff.2 hrange, h]

end

end

/-! ## ALLOCATE -/

/-- The significand and exponent of a rounded magnitude, with a sign, are the nearest binary32 value, ties to even, or
infinity from the overflow threshold on (00 R14 (b)). -/
theorem fmk_roundMag_nearest (neg : Bool) (n : Nat) :
    fsign (fmk neg (roundMag n 925)) = neg ∧
      if (2 ^ 25 - 1) * 2 ^ 1177 ≤ n then fisInf (fmk neg (roundMag n 925)) = true
      else fisFinite (fmk neg (roundMag n 925)) = true ∧ ∀ y, fisFinite y = true →
        distance64 n (fmk neg (roundMag n 925)) ≤ distance64 n y ∧
          (distance64 n y = distance64 n (fmk neg (roundMag n 925)) → fmag y ≠ fmag (fmk neg (roundMag n 925)) →
            (fmk neg (roundMag n 925)).toNat % 2 = 0) := by
  have bound : roundMag n 925 ≤ 0x7F800000 := roundMag_le_infinity n 925
  have overflow := roundMag_lt_iff n 925
  have nearest := roundMag_nearest (n := n) (k := 925)
  rw [show 1177 = 252 + 925 from rfl]
  generalize (2 ^ 25 - 1) * 2 ^ (252 + 925) = limit at *
  have mag := fmag_fmk neg (show roundMag n 925 < 2 ^ 31 by omega)
  have even : (fmk neg (roundMag n 925)).toNat % 2 = roundMag n 925 % 2 := by
    unfold fmag at mag
    omega
  refine ⟨fsign_fmk neg (by omega), ?_⟩
  simp only [fisInf, fisFinite, distance64, fixedMag_eq, mag, even, beq_iff_eq, decide_eq_true_eq]
  by_cases hn : limit ≤ n
  · rw [if_pos hn]
    omega
  · rw [if_neg hn]
    exact ⟨by omega, fun y _ => nearest (by omega) (fmag y)⟩

/-- Rounding a binary64 value gives the nearest binary32 value (00 R14 (f)). -/
theorem fofDouble_nearestF32 (k : Key) (x : BitVec 64) : NearestF32 x (fofDouble k x) := by
  have fields : x.toNat % 2 ^ 63 / 2 ^ 52 = x.toNat / 2 ^ 52 % 2 ^ 11 := by omega
  refine ⟨_, _, rfl, rfl, ?_⟩
  have units (e m : Nat) : (if e = 0 then m else (m + 2 ^ 52) <<< (e - 1)) = units64 e m := by
    rw [units64, Nat.shiftLeft_eq]
  simp only [fofDouble, fields, units]
  generalize x.toNat / 2 ^ 52 % 2 ^ 11 = e
  generalize x.toNat % 2 ^ 52 = m
  have rounded := fmk_roundMag_nearest x.msb (units64 e m)
  generalize (2 ^ 25 - 1) * 2 ^ 1177 = limit at rounded ⊢
  by_cases he : e = 2047
  · by_cases hm : m = 0
    · have infinite : fsign (finf x.msb) = x.msb ∧ fisInf (finf x.msb) = true := by cases x.msb <;> decide
      simpa [he, hm] using infinite
    · simp [he, hm]
  · simpa only [he, false_and, if_false, false_or] using rounded

/-- `f32(sampleRate)` (47 R330). -/
theorem fofNumber_roundedRate (k : Key) (rate : Number) : RoundedRate rate (fofNumber k rate) := by
  cases rate with
  | f32 x => rfl
  | f64 x => exact fofDouble_nearestF32 k x

theorem allocArgsLegal_iff {sr : F32} {bs : Int} :
    allocArgsLegal sr bs = true ↔ fisFinite sr = true ∧ flt 0x00000000#32 sr = true ∧ 0 ≤ bs := by
  simp only [allocArgsLegal, finitePositive, Bool.and_eq_true, decide_eq_true_eq, and_assoc]
  rfl

theorem lifecycleAfterReset_eq (l : Lifecycle) :
    lifecycleAfterReset l = if l = .unallocated then .unallocated else .ready := by
  cases l <;> rfl

end Sys2Proof.Machine
end

section
/-!
SUPPORT. The voices of a READY machine (70_reset_and_hazards.md R384), and that rendering one completes and keeps
them so: its prologue, its LFO tick, its part of the mix and its epilogue (43_voice.md R202, R206; 46_render.md R291 to R296).
-/

namespace Sys2Proof.Machine

/-! ## What a voice holds -/

theorem startedSafe_iff {fp : Bool} {v : Voice} :
    startedSafe fp v = true ↔
      (voiceIsActive v = true →
        v.written.period = true ∧ v.written.target = true ∧ (fp = true → v.written.cutoff = true)) := by
  cases fp <;> cases h : voiceIsActive v <;> simp [startedSafe, h, and_assoc]

theorem copiedSafe_iff {fp : Bool} {v : Voice} :
    copiedSafe fp v = true ↔
      (voiceIsActive v = true →
        v.written.glideRate = true ∧
          (fp = true →
            v.written.filterQ = true ∧ v.written.pitchBend = true ∧ v.written.filterEnvDepth = true)) := by
  cases fp <;> cases h : voiceIsActive v <;> simp [copiedSafe, h, and_assoc]

theorem startedSafe_of_inactive {fp : Bool} {v : Voice} (h : voiceIsActive v = false) : startedSafe fp v = true :=
  startedSafe_iff.2 fun ha => absurd ha (ne_true_of_eq_false h)

theorem copiedSafe_of_inactive {fp : Bool} {v : Voice} (h : voiceIsActive v = false) : copiedSafe fp v = true :=
  copiedSafe_iff.2 fun ha => absurd ha (ne_true_of_eq_false h)

theorem voiceUntouched_iff {v : Voice} :
    voiceUntouched v = true ↔ v.note ≤ 0 ∧ v.env.level = f0 ∧ v.env.target = f0 := by
  simp [voiceUntouched, and_assoc]

/-- Level 0.0 is not above `SILENCE` (41 R165). -/
theorem not_voiceIsActive_of_level_zero {v : Voice} (h : v.env.level = f0) : voiceIsActive v = false := by
  rw [voiceIsActive, envIsActive, h]
  decide

theorem oscSafe_of_phaseMaxSet {o : Oscillator} (h : o.phaseMaxSet = true) : oscSafe o = true :=
  Bool.or_eq_true_iff.2 (.inl h)

/-- A voice of a READY machine, between segments. -/
structure SoundVoice (fp : Bool) (v : Voice) : Prop where
  set     : voiceSet fp v = true
  osc1    : oscSafe v.osc1 = true
  osc2    : oscSafe v.osc2 = true
  started : startedSafe fp v = true

/-- What an operation that takes the voice `v` to `u` keeps of a READY machine. -/
structure KeptVoice (fp : Bool) (v u : Voice) : Prop where
  sound     : SoundVoice fp u
  copied    : copiedSafe fp v = true → copiedSafe fp u = true
  period    : v.written.period = true → u.written.period = true
  untouched : voiceUntouched v = true → voiceUntouched u = true

theorem KeptVoice.refl {fp : Bool} {v : Voice} (h : SoundVoice fp v) : KeptVoice fp v v := ⟨h, id, id, id⟩

theorem KeptVoice.trans {fp : Bool} {v u w : Voice} (h : KeptVoice fp v u) (h' : KeptVoice fp u w) :
    KeptVoice fp v w :=
  ⟨h'.sound, h'.copied ∘ h.copied, h'.period ∘ h.period, h'.untouched ∘ h.untouched⟩

/-- A voice that holds all that rendering an active voice reads. -/
structure LoadedVoice (fp : Bool) (v : Voice) : Prop where
  set       : voiceSet fp v = true
  osc1      : oscSafe v.osc1 = true
  osc2      : oscSafe v.osc2 = true
  period    : v.written.period = true
  target    : v.written.target = true
  glideRate : v.written.glideRate = true
  filter    : fp = true → v.written.cutoff = true ∧ v.written.filterQ = true ∧ v.written.pitchBend = true ∧
                v.written.filterEnvDepth = true

theorem LoadedVoice.sound {fp : Bool} {v : Voice} (h : LoadedVoice fp v) : SoundVoice fp v :=
  ⟨h.set, h.osc1, h.osc2, startedSafe_iff.2 fun _ => ⟨h.period, h.target, fun hf => (h.filter hf).1⟩⟩

theorem LoadedVoice.copied {fp : Bool} {v : Voice} (h : LoadedVoice fp v) : copiedSafe fp v = true :=
  copiedSafe_iff.2 fun _ => ⟨h.glideRate, fun hf => (h.filter hf).2⟩

theorem loadedVoice_of_active {fp : Bool} {v : Voice} (h : SoundVoice fp v) (hc : copiedSafe fp v = true)
    (hv : voiceIsActive v = true) : LoadedVoice fp v := by
  obtain ⟨hperiod, htarget, hcutoff⟩ := startedSafe_iff.1 h.started hv
  obtain ⟨hrate, hfilter⟩ := copiedSafe_iff.1 hc hv
  exact ⟨h.set, h.osc1, h.osc2, hperiod, htarget, hrate, fun hf => ⟨hcutoff hf, hfilter hf⟩⟩

/-- Rendering an active voice may leave any loaded one. -/
theorem LoadedVoice.kept {fp : Bool} {v u : Voice} (hv : voiceIsActive v = true) (h : LoadedVoice fp u) :
    KeptVoice fp v u where
  sound := h.sound
  copied := fun _ => h.copied
  period := fun _ => h.period
  untouched := fun hu => by
    obtain ⟨-, hlevel, -⟩ := voiceUntouched_iff.1 hu
    rw [not_voiceIsActive_of_level_zero hlevel] at hv
    cases hv

/-! ## The signal path -/

/-- `OSC.NEXT` of a sound oscillator completes: one at rest starts a cycle, which writes `phaseMax` (40 R136). -/
theorem oscNext_of_safe (k : Key) {o : Oscillator} (hc : o.cycleSet = true) (hs : oscSafe o = true) :
    ∃ x u, oscNext k o = .ok (x, u) ∧ u.cycleSet = true ∧ oscSafe u = true := by
  by_cases hle : fle (fadd (0 :: k) o.phase o.inc) fPiOver4 = true
  · exact ⟨_, _, oscNext_ok.2 ⟨hc, _, _, rfl, (if_pos hle).mpr rfl, rfl, rfl⟩, hc, rfl⟩
  · have hm : o.phaseMaxSet = true := by
      refine (Bool.or_eq_true_iff.1 hs).resolve_right fun hrest => hle ?_
      obtain ⟨hphase, hinc⟩ : o.phase = f0 ∧ o.inc = f0 := by simpa using hrest
      rw [hphase, hinc, fadd_zero_zero]
      decide
    refine ⟨_, _, oscNext_ok.2 ⟨hc, _, _, rfl, (if_neg hle).mpr ⟨hm, rfl⟩, rfl, rfl⟩, ?_, oscSafe_of_phaseMaxSet ?_⟩
    all_goals
      unfold oscMidCycle oscReflect
      dsimp only
      split
    exacts [hc, hc, hm, hm]

theorem envSet_envStep {e : Envelope} (h : envSet e = true) (k : Key) : envSet (envStep k e).2 = true := by
  unfold envStep envHandoff
  dsimp only
  split <;> exact h

/-- The filter stage completes, and the filter still holds values (42 R184). -/
theorem voiceFilter_of_set {fp : Bool} (k : Key) (x : F32) {v : Voice} (h : fp = true → filterSet v.filter = true) :
    ∃ y f, voiceFilter fp k x v = .ok (y, { v with filter := f }) ∧ (fp = true → filterSet f = true) := by
  cases fp with
  | true =>
    rw [voiceFilter, if_pos rfl, filterRender_ok.2 ⟨h rfl, rfl⟩]
    exact ⟨_, _, rfl, h⟩
  | false => exact ⟨x, v.filter, rfl, h⟩

/-- `VOICE.RENDER` of a loaded voice completes and leaves it loaded (43 R202). -/
theorem voiceRender_of_loaded {fp : Bool} (k : Key) (x : F32) {v : Voice} (h : LoadedVoice fp v) :
    ∃ y u, voiceRender fp k x v = .ok (y, u) ∧ LoadedVoice fp u := by
  obtain ⟨hnote, hpan, htpan, hgains, hsaw, hc1, hc2, henv, hfilter⟩ := voiceSet_iff.1 h.set
  obtain ⟨s1, o1, ho1, hc1', hs1⟩ := oscNext_of_safe (0 :: k) hc1 h.osc1
  obtain ⟨s2, o2, ho2, hc2', hs2⟩ := oscNext_of_safe (1 :: k) hc2 h.osc2
  have hstep := envSet_envStep henv (7 :: k)
  have loaded (f : Filter) (y : F32) (hf : fp = true → filterSet f = true) :
      LoadedVoice fp { v with osc1 := o1, osc2 := o2, saw := y, filter := f, env := (envStep (7 :: k) v.env).2 } :=
    ⟨voiceSet_iff.2 ⟨hnote, hpan, htpan, hgains, hsaw, hc1', hc2', hstep, fun hp => ⟨(hfilter hp).1, hf hp⟩⟩, hs1, hs2,
      h.period, h.target, h.glideRate, h.filter⟩
  rw [voiceRender, ho1, ok_bind]
  dsimp only
  rw [ho2, ok_bind, readSaw, hsaw, readSet_true, ok_bind]
  obtain ⟨y, f, hy, hf⟩ := voiceFilter_of_set (6 :: k)
    (fadd (5 :: k) (fsub (4 :: k) (fadd (3 :: k) (fmul (2 :: k) v.saw fLeak) s1) s2) x)
    (v := { v with osc1 := o1, osc2 := o2, saw := fsub (4 :: k) (fadd (3 :: k) (fmul (2 :: k) v.saw fLeak) s1) s2 })
    fun hp => (hfilter hp).2
  rw [hy, ok_bind]
  dsimp only
  rw [envNext_ok.2 ⟨henv, rfl⟩]
  exact ⟨_, _, rfl, loaded _ _ hf⟩

/-! ## The LFO tick -/

/-- The filter's part of a tick of a loaded voice completes and leaves it loaded (43 R206). -/
theorem voiceUpdateFilter_of_loaded (k : Key) {v : Voice} (h : LoadedVoice true v) (hmod : v.written.filterMod = true) :
    ∃ u, voiceUpdateFilter k v = .ok u ∧ LoadedVoice true u := by
  obtain ⟨hcutoff, hq, hbend, hdepth⟩ := h.filter rfl
  obtain ⟨hnote, hpan, htpan, hgains, hsaw, hc1, hc2, henv, hfilter⟩ := voiceSet_iff.1 h.set
  obtain ⟨hfenv, hset⟩ := hfilter rfl
  rw [voiceUpdateFilter, envNext_ok.2 ⟨hfenv, rfl⟩, ok_bind]
  simp only [readCutoff, readFilterMod, readFilterEnvDepth, readVoicePitchBend, readFilterQ, hcutoff, hmod, hdepth,
    hbend, hq, readSet_true, ok_bind]
  refine ⟨_, rfl, ⟨voiceSet_iff.2 ⟨hnote, hpan, htpan, hgains, hsaw, hc1, hc2, henv, fun _ =>
    ⟨envSet_envStep hfenv _, ?_⟩⟩, h.osc1, h.osc2, h.period, h.target, h.glideRate, h.filter⟩⟩
  rw [filterSet, Bool.and_eq_true] at hset ⊢
  exact ⟨rfl, hset.2⟩

/-- `VOICE.UPDATELFO` of a loaded voice completes and leaves it loaded (43 R206). -/
theorem voiceUpdateLfo_of_loaded {fp : Bool} (k : Key) {v : Voice} (h : LoadedVoice fp v)
    (hmod : fp = true → v.written.filterMod = true) : ∃ u, voiceUpdateLfo fp k v = .ok u ∧ LoadedVoice fp u := by
  obtain ⟨hnote, hpan, htpan, -, hsaw, hc1, hc2, henv, hfilter⟩ := voiceSet_iff.1 h.set
  have glided (p x : F32) (j : Key) : LoadedVoice fp (voiceGains j (writePanning x (writePeriod p v))) :=
    ⟨voiceSet_iff.2 ⟨hnote, rfl, htpan, rfl, hsaw, hc1, hc2, henv, hfilter⟩, h.osc1, h.osc2, rfl, h.target, h.glideRate,
      h.filter⟩
  simp only [voiceUpdateLfo, readPeriod, readTarget, readGlideRate, readPanning, readTargetPanning, h.period, h.target,
    h.glideRate, hpan, htpan, readSet_true, ok_bind]
  cases fp with
  | true => exact voiceUpdateFilter_of_loaded _ (glided _ _ _) (hmod rfl)
  | false => exact ⟨_, rfl, glided _ _ _⟩

/-- `UPDATE_PERIOD` of a loaded voice completes and leaves it loaded (46 R292). -/
theorem updatePeriod_of_loaded {fp : Bool} (k : Key) {s : State} {v : Voice} (hbend : s.written.pitchBend = true)
    (h : LoadedVoice fp v) : ∃ u, updatePeriod s k v = .ok u ∧ LoadedVoice fp u :=
  ⟨_, updatePeriod_ok.2 ⟨h.period, hbend, rfl⟩, ⟨h.set, h.osc1, h.osc2, h.period, h.target, h.glideRate, h.filter⟩⟩

theorem readActive_of_set {v : Voice} (h : v.env.levelSet = true) : readActive v = .ok (voiceIsActive v) :=
  readActive_ok.2 ⟨h, rfl⟩

/-- A tick of a voice whose segment has been opened completes (46 R294). -/
theorem tickVoice_of_sound (k : Key) {s : State} {v : Voice} (hw : s.written = EngineWritten.all)
    (h : SoundVoice s.params.filterPresent v) (hc : copiedSafe s.params.filterPresent v = true) :
    ∃ u, tickVoice s k v = .ok u ∧ KeptVoice s.params.filterPresent v u := by
  rw [tickVoice, readActive_of_set (level_set_of_voiceSet h.set), ok_bind]
  cases hv : voiceIsActive v with
  | false => exact ⟨v, rfl, .refl h⟩
  | true =>
    have loaded := loadedVoice_of_active h hc hv
    simp only [if_true, hw, EngineWritten.all, Bool.and_self, need_true, ok_bind, ite_writeFilterMod]
    obtain ⟨w, hlfo, hloaded⟩ := voiceUpdateLfo_of_loaded (0 :: k) (v := { v with
        osc1 := { v.osc1 with modulation := s.vibratoMod }, osc2 := { v.osc2 with modulation := s.pwm }
        filterMod := if s.params.filterPresent then s.filterZip else v.filterMod
        written := { v.written with filterMod := s.params.filterPresent || v.written.filterMod } })
      ⟨loaded.set, loaded.osc1, loaded.osc2, loaded.period, loaded.target, loaded.glideRate, loaded.filter⟩
      fun hf => by simp [hf]
    obtain ⟨u, hu, hloaded⟩ := updatePeriod_of_loaded (1 :: k) (s := s) (by rw [hw]; rfl) hloaded
    exact ⟨u, by rw [hlfo, ok_bind, hu], hloaded.kept hv⟩

/-! ## The mix -/

/-- The mix of a voice whose segment has been opened completes (46 R293). -/
theorem mixVoice_of_sound (k : Key) (x : F32) (lr : F32 × F32) {s : State} {v : Voice}
    (h : SoundVoice s.params.filterPresent v) (hc : copiedSafe s.params.filterPresent v = true) :
    ∃ r, mixVoice s x k lr v = .ok r ∧ KeptVoice s.params.filterPresent v r.2 := by
  rw [mixVoice, readActive_of_set (level_set_of_voiceSet h.set), ok_bind]
  cases hv : voiceIsActive v with
  | false => exact ⟨(lr, v), rfl, .refl h⟩
  | true =>
    obtain ⟨y, u, hu, hloaded⟩ := voiceRender_of_loaded (0 :: k) x (loadedVoice_of_active h hc hv)
    obtain ⟨-, -, -, hgains, -⟩ := voiceSet_iff.1 hloaded.set
    rw [if_pos rfl, hu, ok_bind]
    dsimp only
    rw [hgains, need_true, ok_bind]
    exact ⟨_, rfl, hloaded.kept hv⟩

/-! ## The segment -/

/-- The copies of a segment load an active voice (46 R291). -/
theorem copySegmentRegisters_loaded {s : State} {v : Voice} (h : SoundVoice s.params.filterPresent v)
    (hv : voiceIsActive v = true) : LoadedVoice s.params.filterPresent (copySegmentRegisters s v) := by
  obtain ⟨hperiod, htarget, hcutoff⟩ := startedSafe_iff.1 h.started hv
  rw [copySegmentRegisters_eq]
  exact ⟨h.set, h.osc1, h.osc2, hperiod, htarget, rfl, fun hf => ⟨hcutoff hf, by simp [hf], by simp [hf], by simp [hf]⟩⟩

/-- The prologue of a voice completes and opens its segment (46 R291). -/
theorem prologueVoice_of_sound (k : Key) {s : State} {v : Voice} (hw : s.written = EngineWritten.all)
    (h : SoundVoice s.params.filterPresent v) :
    ∃ u, prologueVoice s k v = .ok u ∧ KeptVoice s.params.filterPresent v u ∧
      copiedSafe s.params.filterPresent u = true := by
  rw [prologueVoice, readActive_of_set (level_set_of_voiceSet h.set), ok_bind]
  cases hv : voiceIsActive v with
  | false => exact ⟨v, rfl, .refl h, copiedSafe_of_inactive hv⟩
  | true =>
    have periods := (updatePeriod_ok (k := k)).2 ⟨(startedSafe_iff.1 h.started hv).1, by rw [hw]; rfl, rfl⟩
    rw [if_pos rfl, periods, ok_bind]
    have loaded := copySegmentRegisters_loaded (s := s) (v := { v with
        osc1 := { v.osc1 with period := fmul (0 :: k) v.period s.pitchBend }
        osc2 := { v.osc2 with period := fmul (1 :: k) (fmul (0 :: k) v.period s.pitchBend) s.snapshot.detune } })
      ⟨h.set, h.osc1, h.osc2, h.started⟩ hv
    exact ⟨_, rfl, loaded.kept hv, loaded.copied⟩

/-- The epilogue leaves an active voice and silences any other (46 R296). -/
theorem epilogueVoice_kept {fp : Bool} {v : Voice} (h : SoundVoice fp v) : KeptVoice fp v (epilogueVoice fp v) := by
  unfold epilogueVoice
  split
  · exact .refl h
  · have silenced (f : Filter) (hf : fp = true → filterSet f = true) :
        KeptVoice fp v { v with env := envReset v.env, filter := f } := by
      have inactive : voiceIsActive { v with env := envReset v.env, filter := f } = false :=
        not_voiceIsActive_of_level_zero rfl
      obtain ⟨hnote, hpan, htpan, hgains, hsaw, hc1, hc2, -, hfilter⟩ := voiceSet_iff.1 h.set
      exact {
        sound := {
          set := voiceSet_iff.2 ⟨hnote, hpan, htpan, hgains, hsaw, hc1, hc2, rfl, fun hp => ⟨(hfilter hp).1, hf hp⟩⟩
          osc1 := h.osc1
          osc2 := h.osc2
          started := startedSafe_of_inactive inactive }
        copied := fun _ => copiedSafe_of_inactive inactive
        period := id
        untouched := fun hu => voiceUntouched_iff.2 ⟨(voiceUntouched_iff.1 hu).1, rfl, rfl⟩ }
    split
    · exact silenced _ fun _ => rfl
    · obtain ⟨-, -, -, -, -, -, -, -, hfilter⟩ := voiceSet_iff.1 h.set
      exact silenced v.filter fun hp => (hfilter hp).2

end Sys2Proof.Machine
end

section
/-!
SUPPORT. A READY machine keeps the condition of 70_reset_and_hazards.md R384 through the frames of a block, and its
frames complete (46_render.md R291 to R297).
-/

namespace Sys2Proof.Machine

/-! ## The condition -/

/-- The registers of a READY machine, apart from what the prologue of a segment copies (70 R384). -/
structure RegistersSafe (s : State) : Prop where
  written : s.written = EngineWritten.all
  sound   : ∀ i, SoundVoice s.params.filterPresent (getVoice s.voices i)
  begun   : s.voices.v0.written.period = true ∨ ∀ i, voiceUntouched (getVoice s.voices i) = true

theorem readySafe_iff {s : State} :
    readySafe s = true ↔
      RegistersSafe s ∧
        (insideSegment s = true → ∀ i, copiedSafe s.params.filterPresent (getVoice s.voices i) = true) := by
  simp only [readySafe, Bool.and_eq_true, Bool.or_eq_true, Bool.not_eq_true', registersSet_iff, voiceList_all]
  constructor
  · rintro ⟨⟨⟨⟨⟨hwritten, hset⟩, hosc⟩, hstarted⟩, hcopied⟩, hbegun⟩
    refine ⟨⟨hwritten, fun i => ⟨hset i, (hosc i).1, (hosc i).2, hstarted i⟩, hbegun⟩, fun hin => ?_⟩
    exact hcopied.resolve_left (by simp [hin])
  · rintro ⟨⟨hwritten, hsound, hbegun⟩, hcopied⟩
    refine ⟨⟨⟨⟨⟨hwritten, fun i => (hsound i).set⟩, fun i => ⟨(hsound i).osc1, (hsound i).osc2⟩⟩,
      fun i => (hsound i).started⟩, ?_⟩, hbegun⟩
    cases hin : insideSegment s with
    | false => exact .inl rfl
    | true => exact .inr (hcopied hin)

/-- A block is in progress only in a READY machine, where the condition says what the registers hold. -/
theorem readySafe_of_unsetSafe {s : State} (h : unsetSafe s = true) (hr : s.lifecycle = .ready) :
    readySafe s = true := by
  simpa [unsetSafe, hr] using h

theorem unsetSafe_of_readySafe {s : State} (h : readySafe s = true) : unsetSafe s = true := by
  rw [unsetSafe, h, Bool.or_true]

/-- The first frame of a segment is not inside it: what the prologue copies may be UNSET there (70 R384). -/
theorem insideSegment_iff {s : State} {b : Block} (hb : s.block = some b) :
    insideSegment s = true ↔ b.cursor ≠ segmentStart b := by
  rw [insideSegment, hb, decide_eq_true_eq]

/-- An operation that keeps every voice keeps the registers safe. -/
theorem RegistersSafe.of_kept {s t : State} (h : RegistersSafe s) (hp : t.params = s.params)
    (hw : t.written = EngineWritten.all)
    (hk : ∀ i, KeptVoice s.params.filterPresent (getVoice s.voices i) (getVoice t.voices i)) : RegistersSafe t where
  written := hw
  sound := fun i => by rw [hp]; exact (hk i).sound
  begun := h.begun.imp (hk 0).period fun hu i => (hk i).untouched (hu i)

/-! ## Loops -/

/-- A loop over the voices whose updates complete with some property completes with it. -/
theorem updateVoices_of_forall {f : Fin 8 → Voice → Except Halt Voice} {vs : VoiceFile} {P : Fin 8 → Voice → Prop}
    (h : ∀ i, ∃ w, f i (getVoice vs i) = .ok w ∧ P i w) :
    ∃ ws, updateVoices f vs = .ok ws ∧ ∀ i, P i (getVoice ws i) := by
  obtain ⟨ws, hws⟩ := updateVoices_total fun i => (h i).imp fun _ => And.left
  refine ⟨ws, hws, fun i => ?_⟩
  obtain ⟨w, hw, hP⟩ := h i
  rw [updateVoices_ok.1 hws i] at hw
  cases hw
  exact hP

/-- A loop with an accumulator whose updates complete with some property of the voice, for every accumulator. -/
theorem foldVoices_of_forall {α : Type} {f : Fin 8 → α → Voice → Except Halt (α × Voice)} {vs : VoiceFile}
    {P : Fin 8 → Voice → Prop} (h : ∀ i a, ∃ r, f i a (getVoice vs i) = .ok r ∧ P i r.2) (a : α) :
    ∃ r, foldVoices f a vs = .ok r ∧ ∀ i, P i (getVoice r.2 i) := by
  obtain ⟨⟨b, ws⟩, hws⟩ : ∃ r, foldVoices f a vs = .ok r := by
    obtain ⟨⟨a0, w0⟩, h0, -⟩ := h 0 a
    obtain ⟨⟨a1, w1⟩, h1, -⟩ := h 1 a0
    obtain ⟨⟨a2, w2⟩, h2, -⟩ := h 2 a1
    obtain ⟨⟨a3, w3⟩, h3, -⟩ := h 3 a2
    obtain ⟨⟨a4, w4⟩, h4, -⟩ := h 4 a3
    obtain ⟨⟨a5, w5⟩, h5, -⟩ := h 5 a4
    obtain ⟨⟨a6, w6⟩, h6, -⟩ := h 6 a5
    obtain ⟨r7, h7, -⟩ := h 7 a6
    simp only [getVoice] at h0 h1 h2 h3 h4 h5 h6 h7
    refine ⟨(r7.1, ⟨w0, w1, w2, w3, w4, w5, w6, r7.2⟩), ?_⟩
    simp only [foldVoices, h0, h1, h2, h3, h4, h5, h6, h7, ok_bind]
    rfl
  refine ⟨_, hws, fun i => ?_⟩
  obtain ⟨a1, a2, hi⟩ := foldVoices_ok hws i
  obtain ⟨r, hr, hP⟩ := h i a1
  rw [hi] at hr
  cases hr
  exact hP

/-! ## A frame -/

/-- The registers are safe, and the segment in progress has been opened. -/
structure SegmentOpen (s : State) : Prop extends RegistersSafe s where
  copied : ∀ i, copiedSafe s.params.filterPresent (getVoice s.voices i) = true

theorem SegmentOpen.of_kept {s t : State} (h : SegmentOpen s) (hp : t.params = s.params)
    (hw : t.written = EngineWritten.all)
    (hk : ∀ i, KeptVoice s.params.filterPresent (getVoice s.voices i) (getVoice t.voices i)) : SegmentOpen t where
  toRegistersSafe := h.toRegistersSafe.of_kept hp hw hk
  copied := fun i => by rw [hp]; exact (hk i).copied (h.copied i)

/-- The prologue completes, and opens its segment (46 R291). -/
theorem prologue_of_safe (k : Key) {s : State} (h : RegistersSafe s) : ∃ t, prologue k s = .ok t ∧ SegmentOpen t := by
  obtain ⟨vs, hvs, hvoices⟩ := updateVoices_of_forall fun i => prologueVoice_of_sound (i.val :: k) h.written (h.sound i)
  refine ⟨{ s with voices := vs }, by rw [prologue, hvs]; rfl, ?_⟩
  exact ⟨h.of_kept rfl h.written fun i => (hvoices i).1, fun i => (hvoices i).2⟩

/-- Opening the segment of the frame at the cursor completes (46 R297). -/
theorem openSegment_of_safe (k : Key) {s : State} {b : Block} (h : RegistersSafe s)
    (hc : b.cursor ≠ segmentStart b → ∀ i, copiedSafe s.params.filterPresent (getVoice s.voices i) = true) :
    ∃ t, openSegment k b s = .ok t ∧ SegmentOpen t := by
  unfold openSegment
  split
  next => exact prologue_of_safe k h
  next hinside => exact ⟨s, rfl, h, hc hinside⟩

/-- The LFO step completes, tick or no tick (46 R294). -/
theorem lfoStepOp_of_open (k : Key) {s : State} (h : SegmentOpen s) :
    ∃ t, lfoStepOp k s = .ok t ∧ SegmentOpen t := by
  have hstep : s.written.lfoStep = true := by rw [h.written]; rfl
  have hread : tickSet s.written = true := by rw [h.written]; rfl
  rw [lfoStepOp, hstep, need_true, ok_bind]
  dsimp only
  split
  · have hticked : (tickRegisters (8 :: k) { s with lfoStep := s.lfoStep - 1 }).written = EngineWritten.all := by
      rw [tickRegisters_written, h.written]
      rfl
    obtain ⟨vs, hvs, hvoices⟩ := updateVoices_of_forall fun i => tickVoice_of_sound (i.val :: k) hticked
      (by exact h.sound i) (by exact h.copied i)
    rw [lfoTick, hread, need_true, ok_bind]
    dsimp only
    rw [tickRegisters_voices, hvs]
    exact ⟨_, rfl, h.of_kept rfl hticked hvoices⟩
  · exact ⟨_, rfl, h.of_kept rfl h.written fun i => .refl (h.sound i)⟩

/-- A frame of an open segment completes and leaves it open (46 R293). -/
theorem frame_of_open (k : Key) (c : Nat) {s : State} (h : SegmentOpen s) :
    ∃ t, frame k c s = .ok t ∧ SegmentOpen t := by
  obtain ⟨u, hu, hopen⟩ := lfoStepOp_of_open (10 :: k) h
  have hseed : u.written.noiseSeed = true := by rw [hopen.written]; rfl
  have hnoise := (frameNoise_ok (k := 11 :: k)).2 ⟨hseed, rfl, rfl⟩
  obtain ⟨⟨lr, vs⟩, hmix, hvoices⟩ := foldVoices_of_forall (fun i lr =>
    mixVoice_of_sound (i.val :: k) (fmul (1 :: 11 :: k) (noiseSample (0 :: 11 :: k) (noiseStep u.noiseSeed))
      u.snapshot.noiseMix) lr (hopen.sound i) (hopen.copied i)) (f0, f0)
  rw [frame, hu, ok_bind, hnoise, ok_bind]
  dsimp only
  rw [hmix]
  exact ⟨_, rfl, hopen.of_kept rfl hopen.written hvoices⟩

/-- Closing the segment completes (46 R297). -/
theorem closeSegment_of_open (b : Block) {s : State} (h : SegmentOpen s) :
    ∃ t, closeSegment b s = .ok t ∧ SegmentOpen t := by
  unfold closeSegment
  split
  · refine ⟨_, epilogue_ok.2 ⟨fun i => level_set_of_voiceSet (h.sound i).set, rfl⟩, ?_⟩
    refine h.of_kept rfl h.written fun i => ?_
    rw [closeVoices_voices, getVoice_mapVoices]
    exact epilogueVoice_kept (h.sound i)
  · exact ⟨s, rfl, h⟩

/-- The frame at the cursor completes, with its prologue and its epilogue (46 R297). -/
theorem segmentFrame_of_safe (k : Key) {s : State} {b : Block} (h : RegistersSafe s)
    (hc : b.cursor ≠ segmentStart b → ∀ i, copiedSafe s.params.filterPresent (getVoice s.voices i) = true) :
    ∃ t, segmentFrame k b s = .ok t ∧ SegmentOpen t := by
  obtain ⟨s1, h1, hopen1⟩ := openSegment_of_safe (0 :: k) h hc
  obtain ⟨s2, h2, hopen2⟩ := frame_of_open (1 :: k) b.channels hopen1
  obtain ⟨t, h3, hopen3⟩ := closeSegment_of_open b hopen2
  exact ⟨t, by rw [segmentFrame, h1, ok_bind, h2, ok_bind, h3], hopen3⟩

end Sys2Proof.Machine
end

section
/-!
SUPPORT. The events keep the condition of 70_reset_and_hazards.md R384: none reads an UNSET register, and where one that
starts or retunes a voice does not hang (60_exceptions.md R365), the registers stay safe (44_events.md R232 to R246).
-/

namespace Sys2Proof.Machine

open Sys2Proof.Claims

/-! ## A voice under an event -/

theorem SoundVoice.writeNote {fp : Bool} {v : Voice} (h : SoundVoice fp v) (n : Int) :
    SoundVoice fp (writeNote n v) where
  set := by rw [writeNote_of_set (note_set_of_voiceSet h.set)]; exact h.set
  osc1 := h.osc1
  osc2 := h.osc2
  started := h.started

/-- FREE and SUSTAINED voices hold no note (10 R31). -/
theorem writeNote_kept {fp : Bool} {v : Voice} (h : SoundVoice fp v) {n : Int} (hn : n ≤ 0) :
    KeptVoice fp v (writeNote n v) :=
  ⟨h.writeNote n, id, id, fun hu => voiceUntouched_iff.2 ⟨hn, (voiceUntouched_iff.1 hu).2⟩⟩

/-- A release leaves the level, so the voice is as active as it was (43 R203). -/
theorem voiceRelease_kept {fp : Bool} {v : Voice} (h : SoundVoice fp v) : KeptVoice fp v (voiceRelease fp v) := by
  rw [voiceRelease_of_set h.set]
  refine ⟨⟨?_, h.osc1, h.osc2, h.started⟩, id, id, fun hu => ?_⟩
  · cases fp <;> exact h.set
  · obtain ⟨hnote, hlevel, -⟩ := voiceUntouched_iff.1 hu
    exact voiceUntouched_iff.2 ⟨hnote, hlevel, rfl⟩

/-- The release scan of a voice (44 R234). -/
theorem releaseMatching_kept {fp : Bool} {v : Voice} (h : SoundVoice fp v) (pedal : Bool) (n : Int) :
    KeptVoice fp v (releaseMatching fp pedal n v) := by
  unfold releaseMatching
  split
  · split
    · exact writeNote_kept h (by decide)
    · exact (voiceRelease_kept h).trans (writeNote_kept (voiceRelease_kept h).sound le_rfl)
  · exact .refl h

/-- `VOICE.RESET` leaves a voice that no note has started (43 R201). -/
theorem voiceReset_kept {fp : Bool} {v : Voice} (h : SoundVoice fp v) (k : Key) :
    KeptVoice fp v (voiceReset fp k v) := by
  rw [voiceReset_eq_silencedVoice]
  have inactive : voiceIsActive (silencedVoice fp v) = false := not_voiceIsActive_of_level_zero rfl
  have rest (o : Oscillator) : oscSafe (restOsc o) = true := Bool.or_eq_true_iff.2 (.inr rfl)
  exact {
    sound := {
      set := voiceSet_iff.2 ⟨rfl, rfl, rfl, rfl, rfl, rfl, rfl, rfl, fun hf => by subst hf; exact ⟨rfl, rfl⟩⟩
      osc1 := rest _
      osc2 := rest _
      started := startedSafe_of_inactive inactive }
    copied := fun _ => copiedSafe_of_inactive inactive
    period := id
    untouched := fun _ => voiceUntouched_iff.2 ⟨le_rfl, rfl, rfl⟩ }

/-- A retuned voice that had a period is sound: the retune writes the target and the cutoff (45 R266). -/
theorem soundVoice_of_retuned {s : State} {p : F32} {n vel : Int} {v u : Voice} (h : Retuned s p n vel v u)
    (hv : SoundVoice s.params.filterPresent v) (hperiod : v.written.period = true) :
    SoundVoice s.params.filterPresent u ∧ u.written.period = true := by
  have period : u.written.period = true := by
    rw [h.unwritten]
    exact Bool.or_eq_true_iff.2 (.inl hperiod)
  have cutoff (hf : s.params.filterPresent = true) : u.written.cutoff = true := ((if_pos hf).mp h.cutoff).2
  refine ⟨⟨voiceSet_of_retuned h hv.set, ?_, ?_, startedSafe_iff.2 fun _ => ⟨period, ?_, cutoff⟩⟩, period⟩ <;>
    rw [h.unwritten]
  exacts [hv.osc1, hv.osc2]

theorem envSet_of_attacked {attack decay sustain release : F32} {e u : Envelope}
    (h : AttackedEnv attack decay sustain release e u) : envSet u = true := by
  obtain ⟨_, rfl⟩ := h
  rfl

/-- The second oscillator of a started voice is as sound as it was, or resynchronised, which writes `phaseMax`
(40 R138; 45 R265). -/
theorem osc2_of_started {s : State} {p : F32} {n vel : Int} {v u : Voice} (h : Started s p n vel v u)
    (hc : v.osc2.cycleSet = true) (hs : oscSafe v.osc2 = true) : u.osc2.cycleSet = true ∧ oscSafe u.osc2 = true := by
  have osc2 := h.osc2
  split at osc2
  · obtain ⟨_, _, -, hsync⟩ := osc2
    rw [hsync]
    exact ⟨rfl, rfl⟩
  · rw [osc2]
    exact ⟨hc, hs⟩

/-- A started voice is sound (45 R265). -/
theorem soundVoice_of_started {s : State} {p : F32} {n vel : Int} {v u : Voice} (h : Started s p n vel v u)
    (hv : SoundVoice s.params.filterPresent v) :
    SoundVoice s.params.filterPresent u ∧ u.written.period = true := by
  obtain ⟨hnote, hpan, htpan, hgains, hsaw, hc1, hc2, -, hfilter⟩ := voiceSet_iff.1 hv.set
  obtain ⟨hc2', hs2⟩ := osc2_of_started h hc2 hv.osc2
  obtain ⟨hc1', hs1⟩ : u.osc1.cycleSet = true ∧ oscSafe u.osc1 = true := by rw [h.osc1]; exact ⟨hc1, hv.osc1⟩
  have period : u.written.period = true := by rw [h.unwritten]
  have target : u.written.target = true := by rw [h.unwritten]
  have cutoff (hf : s.params.filterPresent = true) : u.written.cutoff = true := ((if_pos hf).mp h.cutoff).2
  have filterEnv (hf : s.params.filterPresent = true) := envSet_of_attacked ((if_pos hf).mp h.filterEnv)
  refine ⟨⟨voiceSet_iff.2 ⟨?_, ?_, ?_, ?_, ?_, hc1', hc2', envSet_of_attacked h.env, fun hf => ⟨filterEnv hf, ?_⟩⟩, hs1,
    hs2, startedSafe_iff.2 fun _ => ⟨period, target, cutoff⟩⟩, period⟩ <;> rw [h.unwritten]
  exacts [hnote, hpan, htpan, hgains, hsaw, (hfilter hf).2]

/-! ## The registers under an event -/

/-- Until voice 0 has been started no voice holds a note (70 R384). -/
theorem RegistersSafe.period_of_note_pos {s : State} (h : RegistersSafe s) {i : Fin 8}
    (hn : 0 < (getVoice s.voices i).note) : s.voices.v0.written.period = true := by
  refine h.begun.resolve_right fun hu => ?_
  exact absurd (voiceUntouched_iff.1 (hu i)).1 hn.not_ge

/-- Until voice 0 has been started the allocator finds it: the scan is strict, and every level is 0.0 (45 R262). -/
theorem quietestVoice_of_untouched {p : Snapshot} {vs : VoiceFile} (h : ∀ i, voiceUntouched (getVoice vs i) = true) :
    quietestVoice p vs = 0 := by
  obtain hfound | ⟨hzero, -⟩ := quietestVoice_spec p vs
  · obtain ⟨-, level0, target0⟩ := voiceUntouched_iff.1 (h 0)
    obtain ⟨-, level, -⟩ := voiceUntouched_iff.1 (h (quietestVoice p vs))
    have quiet : IsQuieter f100 (getVoice vs 0) :=
      ⟨not_envIsInAttack_of_target_zero target0, by rw [level0]; decide⟩
    by_contra hne
    have lower := hfound.first 0 (Fin.pos_iff_ne_zero.2 hne) quiet
    rw [level, level0, flt_irrefl] at lower
    cases lower
  · exact hzero

/-- Writing one sound voice, and `lastNote`, when voice 0 has a period after it. -/
theorem RegistersSafe.startedVoice {s : State} (h : RegistersSafe s) {i : Fin 8} {u : Voice} {n : Int}
    (hu : SoundVoice s.params.filterPresent u)
    (hperiod : (getVoice (setVoice s.voices i u) 0).written.period = true) :
    RegistersSafe (writeLastNote n { s with voices := setVoice s.voices i u }) where
  written := by
    rw [writeLastNote_written, h.written]
    rfl
  sound := fun j => by
    rw [writeLastNote_voices, getVoice_setVoice]
    split
    · exact hu
    · exact h.sound j
  begun := .inl hperiod

/-- An operation that reads no UNSET register: it hangs, or completes with the registers safe. -/
def HangsOrSafe (r : Except Halt State) : Prop := r = .error .hang ∨ ∃ t, r = .ok t ∧ RegistersSafe t

theorem doubleToFloor_cases (k : Key) (detune x : F32) (fuel : Nat) :
    doubleToFloor k detune fuel x = .error .hang ∨ ∃ y, doubleToFloor k detune fuel x = .ok y := by
  induction fuel generalizing x with
  | zero => exact .inl rfl
  | succ fuel ih =>
    rw [doubleToFloor]
    split
    · exact ih _
    · exact .inr ⟨x, rfl⟩

/-- `RESTART_MONO_VOICE`, once voice 0 has been started (45 R266). -/
theorem restartMonoVoice_safe (k : Key) (n vel : Int) {s : State} (h : RegistersSafe s)
    (hperiod : s.voices.v0.written.period = true) : HangsOrSafe (restartMonoVoice k n vel s) := by
  obtain hp | ⟨p, hp⟩ := doubleToFloor_cases (1 :: 0 :: k) s.snapshot.detune (rawPeriod (0 :: 0 :: k) s.snapshot 0 n)
    doublingFuel
  · rw [restartMonoVoice, calcPeriod, hp]
    exact .inl rfl
  · obtain ⟨u, hu, hretuned⟩ := restartMonoVoice_of_set (n := n) (vel := vel) hp (h.sound 0).set
    obtain ⟨hsound, hset⟩ := soundVoice_of_retuned hretuned (h.sound 0) hperiod
    exact .inr ⟨_, hu, h.startedVoice hsound (by rwa [getVoice_setVoice_same])⟩

/-- `START_VOICE`, of voice 0 before it has been started, of any voice after (45 R265). -/
theorem startVoice_safe (k : Key) {i : Fin 8} (n vel : Int) {s : State} (h : RegistersSafe s)
    (hi : s.voices.v0.written.period = true ∨ i = 0) : HangsOrSafe (startVoice k i n vel s) := by
  obtain hp | ⟨p, hp⟩ := doubleToFloor_cases (1 :: 0 :: k) s.snapshot.detune (rawPeriod (0 :: 0 :: k) s.snapshot i n)
    doublingFuel
  · rw [startVoice, calcPeriod, hp]
    exact .inl rfl
  · have hset : registersSet s = true := registersSet_iff.2 ⟨h.written, fun j => (h.sound j).set⟩
    obtain ⟨u, hu, hstarted⟩ := startVoice_of_set vel hset hp (h.sound i).osc1
    obtain ⟨hsound, hperiod⟩ := soundVoice_of_started hstarted (h.sound i)
    refine .inr ⟨_, hu, h.startedVoice hsound ?_⟩
    rw [getVoice_setVoice]
    split
    next => exact hperiod
    next hne => exact hi.resolve_right (Ne.symm hne)

/-! ## Note-ons -/

/-- A push, which the mono note-on makes only while voice 0 holds a note (45 R267). -/
theorem RegistersSafe.pushNotes {s : State} (h : RegistersSafe s) (hperiod : s.voices.v0.written.period = true) :
    RegistersSafe { s with voices := pushNotes s.params.filterPresent s.voices } where
  written := h.written
  sound := fun i => by
    refine Fin.cases ?_ (fun j => ?_) i
    · exact h.sound 0
    · rw [getVoice_pushNotes_succ]
      exact (voiceRelease_kept ((h.sound j.succ).writeNote _)).sound
  begun := .inl hperiod

/-- A note-on (44 R232). -/
theorem noteOnOp_safe (k : Key) (n vel : Int) {s : State} (h : RegistersSafe s) : HangsOrSafe (noteOnOp k n vel s) := by
  have notes (i : Fin 8) := note_set_of_voiceSet (h.sound i).set
  by_cases hmono : s.snapshot.numVoices = 1
  · by_cases hheld : 0 < s.voices.v0.note
    · have period := h.period_of_note_pos (i := 0) hheld
      rw [noteOnOp_legato notes hmono hheld]
      exact restartMonoVoice_safe k n vel (h.pushNotes period) period
    · rw [noteOnOp_start (notes 0) (fun _ => Int.not_lt.1 hheld) ((if_pos hmono).mpr rfl)]
      exact startVoice_safe k n vel h (.inr rfl)
  · have found : findFreeVoice s.snapshot s.voices = .ok (quietestVoice s.snapshot s.voices) := by
      refine findFreeVoice_of_set fun j _ => ?_
      obtain ⟨-, -, -, -, -, -, -, henv, -⟩ := voiceSet_iff.1 (h.sound j).set
      obtain ⟨hlevel, htarget, -⟩ := envSet_iff.1 henv
      exact ⟨hlevel, htarget⟩
    rw [noteOnOp_start (notes 0) (fun hm => absurd hm hmono) ((if_neg hmono).mpr found)]
    exact startVoice_safe k n vel h (h.begun.imp_right quietestVoice_of_untouched)

/-! ## Note-offs -/

theorem popNote_kept {fp : Bool} {vs : VoiceFile} (h : ∀ i, SoundVoice fp (getVoice vs i)) (i : Fin 8) :
    KeptVoice fp (getVoice vs i) (getVoice (popNote vs).2 i) := by
  unfold popNote
  split
  next t _ =>
    rw [getVoice_setVoice]
    split
    next hi => subst hi; exact writeNote_kept (h i) le_rfl
    next => exact .refl (h i)
  next => exact .refl (h i)

/-- A popped note was held by a voice (45 R268). -/
theorem note_pos_of_popNote {vs : VoiceFile} (h : 0 < (popNote vs).1) : ∃ i, 0 < (getVoice vs i).note := by
  unfold popNote at h
  split at h
  next t _ => exact ⟨t, h⟩
  next => exact absurd h (lt_irrefl 0)

theorem popQueue_safe (k : Key) {s : State} (h : RegistersSafe s) : HangsOrSafe (popQueue k s) := by
  have pop := (nextQueuedNote_ok (vs := s.voices)).2
    ⟨notesSet_tail.2 fun j => note_set_of_voiceSet (h.sound j.succ).set, rfl⟩
  have popped : RegistersSafe { s with voices := (popNote s.voices).2 } :=
    h.of_kept rfl h.written (popNote_kept h.sound)
  rw [popQueue, pop, ok_bind]
  dsimp only
  split
  next hpos =>
    obtain ⟨i, hi⟩ := note_pos_of_popNote hpos
    exact restartMonoVoice_safe k _ _ popped ((popNote_kept h.sound 0).period (h.period_of_note_pos hi))
  next => exact .inr ⟨_, rfl, popped⟩

theorem popIfSounding_safe (k : Key) (n : Int) {s : State} (h : RegistersSafe s) :
    HangsOrSafe (popIfSounding k n s) := by
  have note : s.voices.v0.written.note = true := note_set_of_voiceSet (h.sound 0).set
  unfold popIfSounding
  split
  · rw [note, need_true, ok_bind]
    split
    · exact popQueue_safe k h
    · exact .inr ⟨s, rfl, h⟩
  · exact .inr ⟨s, rfl, h⟩

/-- A note-off (44 R234). -/
theorem noteOffOp_safe (k : Key) (n : Int) {s : State} (h : RegistersSafe s) : HangsOrSafe (noteOffOp k n s) := by
  obtain hhang | ⟨t, ht, hsafe⟩ := popIfSounding_safe k n h
  · rw [noteOffOp, hhang]
    exact .inl rfl
  · have pedal : t.written.sustainPedalPressed = true := by rw [hsafe.written]; rfl
    have scan : releaseScan n t = .ok (releaseVoices n t) := by
      refine releaseScan_ok.2 ⟨notesSet_iff.2 fun i => note_set_of_voiceSet (hsafe.sound i).set, ?_, rfl⟩
      rw [pedal, Bool.true_or]
    refine .inr ⟨releaseVoices n t, by rw [noteOffOp, ht, ok_bind, scan], hsafe.of_kept rfl hsafe.written fun i => ?_⟩
    rw [releaseVoices_voices, getVoice_mapVoices]
    exact releaseMatching_kept (hsafe.sound i) _ n

/-- The sustain pedal (44 R240). -/
theorem sustainOp_safe (k : Key) (val : BitVec 7) {s : State} (h : RegistersSafe s) :
    HangsOrSafe (sustainOp k val s) := by
  have pedal (b : Bool) : RegistersSafe (writePedal b s) :=
    h.of_kept rfl (by rw [writePedal_written, h.written]; rfl) fun i => .refl (h.sound i)
  unfold sustainOp
  dsimp only
  split
  · exact .inr ⟨_, rfl, pedal _⟩
  · exact noteOffOp_safe k (-1) (pedal _)

/-! ## Every event -/

/-- An outcome without a fault, the registers safe, unless it is the hang (60 R365). -/
def GoesOnSafely (r : Result) : Prop := r = .fault .hang ∨ ∃ t, r = .next t ∧ t.fault = none ∧ RegistersSafe t

theorem finish_safe {s : State} {r : Except Halt State} (hr : HangsOrSafe r) (hf : ∀ t, r = .ok t → t.fault = none) :
    GoesOnSafely (finish s r) := by
  obtain rfl | ⟨t, rfl, hsafe⟩ := hr
  · exact .inl rfl
  · exact .inr ⟨t, rfl, hf t rfl, hsafe⟩

theorem exec_event_safe {i : Instr} {s : State} (hi : encodeCommand i = none) (hf : s.fault = none)
    (h : RegistersSafe s) : GoesOnSafely (exec i s) := by
  have same (i : Fin 8) : KeptVoice s.params.filterPresent (getVoice s.voices i) (getVoice s.voices i) :=
    .refl (h.sound i)
  have noteOff (n : Int) : GoesOnSafely (finish s (noteOffOp (stepKey s) n s)) := by
    refine finish_safe (noteOffOp_safe _ n h) fun t ht => ?_
    obtain ⟨_, _, _, rfl⟩ := noteOffOp_ok ht
    exact hf
  cases i <;> simp only [encodeCommand, reduceCtorEq] at hi
  case noteOff ch n vel => exact noteOff _
  case noteOnV0 ch n => exact noteOff _
  case noteOn ch n vel =>
    refine finish_safe (noteOnOp_safe _ _ _ h) fun t ht => ?_
    obtain ⟨_, rfl⟩ := noteOnOp_ok ht
    exact hf
  case ccSustain ch val =>
    refine finish_safe (sustainOp_safe _ val h) fun t ht => ?_
    obtain ⟨_, _, _, rfl⟩ := sustainOp_ok ht
    exact hf
  case ccModwheel ch val => exact .inr ⟨_, rfl, hf, h.of_kept rfl (by simp only [h.written]; rfl) same⟩
  case pitchBend ch bend => exact .inr ⟨_, rfl, hf, h.of_kept rfl (by simp only [h.written]; rfl) same⟩
  case ccAllNotesOff ch c val =>
    refine .inr ⟨_, rfl, hf, h.of_kept rfl (by rw [allNotesOffOp_written, h.written]; rfl) fun j => ?_⟩
    rw [allNotesOffOp_voices, getVoice_mapVoices]
    exact voiceReset_kept (h.sound j) _
  all_goals exact .inr ⟨_, rfl, hf, h.of_kept rfl h.written same⟩

/-- Applying a record (44 R230). -/
theorem applyEvent_safe (bytes : List Byte) {s : State} (hf : s.fault = none) (h : RegistersSafe s) :
    GoesOnSafely (applyEvent bytes s) := by
  have moved {t : State} (ht : RegistersSafe t) : RegistersSafe (afterEvent t) := ⟨ht.written, ht.sound, ht.begun⟩
  unfold applyEvent
  split
  next i hdecode =>
    obtain hhang | ⟨t, ht, hfault, hsafe⟩ := exec_event_safe (encodeCommand_of_decode hdecode) hf h
    · rw [hhang]
      exact .inl rfl
    · rw [ht]
      exact .inr ⟨_, rfl, hfault, moved hsafe⟩
  next => exact .inr ⟨_, rfl, hf, moved h⟩

end Sys2Proof.Machine
end

section
/-!
SUPPORT. A block in progress in a machine whose scheduler and registers are sound goes on without a fault, unless a note
hangs (47_scheduler_host.md R326; 60_exceptions.md R365; 70_reset_and_hazards.md R384).
-/

namespace Sys2Proof.Machine

/-- A block takes its next step without a fault, and the condition of 70 R384 holds after it, unless the step is a note
that hangs (60 R365). -/
theorem step_of_block_safe {s : State} {b : Block} (hf : s.fault = none) (hb : s.block = some b)
    (hok : schedulerOk s = true) (hu : unsetSafe s = true) :
    step s = .fault .hang ∨ ∃ t, step s = .next t ∧ t.fault = none ∧ unsetSafe t = true := by
  have sound := schedulerOk_iff.1 hok b hb
  obtain ⟨hsafe, hcopied⟩ := readySafe_iff.1 (readySafe_of_unsetSafe hu sound.ready)
  rw [insideSegment_iff hb] at hcopied
  rw [step_of_block hf hb]
  by_cases hc : b.cursor < segmentEnd b
  · obtain ⟨t, ht, hopen⟩ := segmentFrame_of_safe (stepKey s) hsafe hcopied
    refine .inr ⟨afterFrame t, by rw [blockStep_of_cursor_lt hc, frameStep, ht]; rfl, ?_, ?_⟩
    · exact (segmentFrame_frame ht).1.fault.trans hf
    · exact unsetSafe_of_readySafe (readySafe_iff.2 ⟨⟨hopen.written, hopen.sound, hopen.begun⟩, fun _ => hopen.copied⟩)
  · cases he : nextEvent b with
    | some e =>
      rw [segmentEnd_of_some he] at hc
      rw [blockStep_of_some he, if_neg hc]
      refine (applyEvent_safe e.bytes hf hsafe).imp_right ?_
      rintro ⟨t, ht, hfault, hsafe'⟩
      obtain ⟨-, -, -, -, hblock⟩ := applyEvent_keeps ht
      rw [hb] at hblock
      have outside : ¬ insideSegment t = true := by
        rw [insideSegment_iff hblock, segmentStart_advanceEvent he]
        have before := sound.beforeEnd
        rw [segmentEnd_of_some he] at before
        exact not_not.2 (le_antisymm before (Nat.le_of_not_lt hc))
      exact ⟨t, ht, hfault, unsetSafe_of_readySafe (readySafe_iff.2 ⟨hsafe', fun hin => absurd hin outside⟩)⟩
    | none =>
      rw [segmentEnd_of_none he] at hc
      rw [blockStep_of_none he, if_neg hc]
      refine .inr ⟨endBlock s, rfl, hf, unsetSafe_of_readySafe (readySafe_iff.2 ⟨?_, fun hin => by cases hin⟩)⟩
      exact ⟨hsafe.written, hsafe.sound, hsafe.begun⟩

/-- A run whose first step has no next state ends with that step. -/
theorem run_succ_of_fault {k : Nat} {s : State} {r : Fault} (h : step s = .fault r) :
    core.run (k + 1) s = .fault r := by
  have hstep : core.step s = .fault r := h
  simp only [Host.Core.run, hstep]

/-- With nothing left to do the step ends the block, whose output is complete (20 R82; 47 R326). -/
theorem step_of_no_units {s : State} {b : Block} (hf : s.fault = none) (hb : s.block = some b)
    (hok : schedulerOk s = true) (hn : unitsLeft b = 0) :
    step s = .next (endBlock s) ∧ s.out.ch0.length = b.frames ∧
      s.out.ch1.length = if b.channels = 2 then b.frames else 0 := by
  have sound := schedulerOk_iff.1 hok b hb
  unfold unitsLeft at hn
  have he : nextEvent b = none := List.getElem?_eq_none_iff.2 (by omega)
  have done : b.cursor = b.frames := by
    have before := sound.beforeEnd
    rw [segmentEnd_of_none he] at before
    omega
  refine ⟨?_, sound.ch0.trans done, by rw [sound.ch1, done]⟩
  rw [step_of_block hf hb, blockStep_of_none he, if_neg (by omega)]

end Sys2Proof.Machine
end

section
/-!
PROOFS. The statements of the family of 47_scheduler_host.md.
-/

namespace Sys2Proof.Proofs

open Sys2Proof.Machine

/-- Settles O51, by cases on what a step can do: a frame moves the cursor inside its segment and writes its elements, an
event begins the next segment at its offset, and a host command leaves no block in progress but the one it accepts. -/
theorem schedulerInvariantKept : Obligations.SchedulerInvariantKept := by
  intro s t hs h
  cases (step_next h).2 with
  | frame b u hb hc hu =>
    exact schedulerOk_of_block (block_afterFrame hb hu) ((schedulerOk_iff.1 hs b hb).afterFrame hc hu)
  | frameFault => exact hs
  | event b e _ hb he hc ht =>
    obtain ⟨hlife, hparams, hsnapshot, hout, hblock⟩ := applyEvent_keeps ht
    exact schedulerOk_of_block (by rw [hblock, hb]; rfl)
      ((schedulerOk_iff.1 hs b hb).afterEvent he hc hlife hparams hsnapshot hout)
  | blockEnd => exact schedulerOk_of_no_block rfl
  | idle => exact hs
  | command c rest u hb _ hu => exact (hu.schedulerOk hb : schedulerOk u = true)

/-- Settles O59: of what a step can do, only a frame and an event are left with work to do and no fault raised. -/
theorem oneUnitPerStep : Obligations.OneUnitPerStep := by
  intro s t b hb hs h hfault hwork
  have sound := schedulerOk_iff.1 hs b hb
  cases (step_next h).2 with
  | frame c u hc hlt hu =>
    obtain rfl : b = c := Option.some.inj (hb.symm.trans hc)
    obtain ⟨_, _, _, hout⟩ := segmentFrame_out hu
    have inside := segmentEnd_le sound.operands
    refine ⟨_, block_afterFrame hb hu, ?_, .inl ⟨rfl, ?_⟩⟩
    · simp only [unitsLeft, advanceCursor]
      omega
    · change ∃ x, u.out.ch0 = _
      rw [hout, outFrame]
      split <;> exact ⟨_, rfl⟩
  | frameFault => cases hfault
  | event c e _ hc he _ ht =>
    obtain rfl : b = c := Option.some.inj (hb.symm.trans hc)
    obtain ⟨-, -, -, hout, hblock⟩ := applyEvent_keeps ht
    have left := (List.getElem?_eq_some_iff.1 he).1
    refine ⟨_, by rw [hblock, hb]; rfl, ?_, .inr ⟨rfl, hout⟩⟩
    simp only [unitsLeft]
    omega
  | blockEnd c hc he hdone =>
    obtain rfl : b = c := Option.some.inj (hb.symm.trans hc)
    have none := List.getElem?_eq_none_iff.1 he
    unfold unitsLeft at hwork
    omega
  | idle hn => rw [hb] at hn; cases hn
  | command _ _ _ hn => rw [hb] at hn; cases hn

/-- Settles O60, by induction on the units left: each step does one of them and leaves a machine as sound, or is a note
that hangs; with none left the step ends the block. -/
theorem blockEndsAfterItsUnits : Obligations.BlockEndsAfterItsUnits := by
  intro s b hf hb hok hu
  induction hn : unitsLeft b generalizing s b with
  | zero =>
    obtain ⟨hstep, h0, h1⟩ := step_of_no_units hf hb hok hn
    exact .inl ⟨endBlock s, run_succ_of_next hstep, hf, rfl, rfl, h0, h1⟩
  | succ n ih =>
    obtain hstep | ⟨t, hstep, hfault, hsafe⟩ := step_of_block_safe hf hb hok hu
    · exact .inr (run_succ_of_fault hstep)
    · obtain ⟨c, hc, hunits, hunit⟩ := oneUnitPerStep s t b hb hok hstep hfault (by omega)
      obtain ⟨hframes, hchannels⟩ : c.frames = b.frames ∧ c.channels = b.channels := by
        obtain ⟨rfl, -⟩ | ⟨rfl, -⟩ := hunit <;> exact ⟨rfl, rfl⟩
      rw [run_succ_of_next hstep, ← hframes, ← hchannels]
      exact ih t c hfault hc (schedulerInvariantKept s t hok hstep) hsafe (by omega)

/-- Settles O28: the model rounds the rate to the nearest value and then tests it. -/
theorem allocateSetsRate : Obligations.AllocateSetsRate := by
  intro rate bs s hf
  have run : exec (.allocate rate bs) s = _ := unlessStuck_of_none hf
  refine ⟨fofNumber (stepKey s) rate, fofNumber_roundedRate _ _, ?_⟩
  rw [run]
  split
  next hl =>
    refine ⟨_, if_pos (allocArgsLegal_iff.2 hl), fun i => ?_⟩
    by_cases hfp : s.params.filterPresent = true
    · simp only [allocateOp_voices, if_pos hfp, getVoice_mapVoices]
    · simp only [allocateOp_voices, if_neg hfp]
  next hl => exact if_neg (mt allocArgsLegal_iff.1 hl)

/-- Settles O30: the reset voices are silenced, and the reset registers hold the literals. -/
theorem resetWritesResetValues : Obligations.ResetWritesResetValues := by
  intro s hf
  refine ⟨(resetOp (stepKey s) s).voices, ?_, fun i => ?_⟩
  · rw [← lifecycleAfterReset_eq]
    exact unlessStuck_of_none hf
  · rw [resetOp_voices, getVoice_mapVoices, voiceReset_eq_silencedVoice]

/-- Settles O32: a legal block gives no reason to refuse it. -/
theorem processBlockStartsScheduler : Obligations.ProcessBlockStartsScheduler := by
  intro p events frames channels s hf hr hp hc he ho
  refine exec_processBlock_accepted hf hr (blockRefusal_eq_none.2 ⟨snapshotLegal_iff.2 hp, ?_⟩)
  exact blockOperandsLegal_iff.2 ⟨channelsLegal_iff.2 hc, eventsNonempty_iff.2 fun e h => (he e h).1,
    eventsInRange_iff.2 fun e h => (he e h).2, eventsOrdered_iff.2 ho⟩

/-- Settles O33, reason by reason, each with those before it excluded. -/
theorem processBlockRefusalOrder : Obligations.ProcessBlockRefusalOrder := by
  intro p events frames channels s hf hr
  have refused {reason : RefuseReason} := exec_processBlock_refused (p := p) (events := events) (frames := frames)
    (channels := channels) (reason := reason) hf hr
  refine ⟨fun hp => refused (blockRefusal_paramRange hp), fun hp => ⟨fun hc => refused ?_, fun hc => ?_⟩⟩
  · exact blockRefusal_channels hp (not_or.2 hc)
  · rw [blockRefusal_events hp hc] at refused
    exact ⟨fun he => refused (eventsRefusal_empty he), fun hne =>
      ⟨fun hl => refused (eventsRefusal_range hne hl), fun hr ho => refused (eventsRefusal_order hne hr ho)⟩⟩

/-- Settles O10: a long record does not decode, so only `evIndex` moves. -/
theorem longRecordChangesNothing : Obligations.LongRecordChangesNothing := by
  intro bytes s h
  obtain ⟨-, -, -, long, -⟩ := recordLengthDecidesFirst
  rw [applyEvent, long _ h]
  rfl

/-- Settles O29. -/
theorem deallocateEndsLifetime : Obligations.DeallocateEndsLifetime := fun _ => unlessStuck_of_none

/-- Settles O34: the fault is entered before anything is checked, and is sticky. -/
theorem blockBeforeReadyFaults : Obligations.BlockBeforeReadyFaults := fun _ _ _ _ _ hf hr =>
  ⟨(unlessStuck_of_none hf).trans (if_neg hr), rfl⟩

end Sys2Proof.Proofs
end

section
/-!
SUPPORT. The host commands in a machine that meets the condition of 70_reset_and_hazards.md R384: `RESET` brings about what
R384 asks of a READY machine, an accepted block begins outside a segment, and no other command makes a machine READY
(47_scheduler_host.md R320, R330 to R332).
-/

namespace Sys2Proof.Machine

open Sys2Proof.Claims

/-- The condition asks nothing of a machine that is not READY. -/
theorem unsetSafe_of_not_ready {s : State} (h : s.lifecycle ≠ .ready) : unsetSafe s = true :=
  Bool.or_eq_true_iff.2 (.inl (decide_eq_true h))

/-- Outside a segment the condition asks nothing of the registers that a prologue copies (46 R291). -/
theorem unsetSafe_of_outside {s : State} (h : RegistersSafe s) (hout : insideSegment s = false) : unsetSafe s = true :=
  unsetSafe_of_readySafe (readySafe_iff.2 ⟨h, fun hin => absurd hin (ne_true_of_eq_false hout)⟩)

/-- `VOICE.RESET` leaves a sound voice that no note has started, whatever it found (43 R201). -/
theorem voiceReset_sound (fp : Bool) (k : Key) (v : Voice) :
    SoundVoice fp (voiceReset fp k v) ∧ voiceUntouched (voiceReset fp k v) = true := by
  rw [voiceReset_eq_silencedVoice]
  have rest (o : Oscillator) : oscSafe (restOsc o) = true := Bool.or_eq_true_iff.2 (.inr rfl)
  refine ⟨⟨voiceSet_iff.2 ⟨rfl, rfl, rfl, rfl, rfl, rfl, rfl, rfl, fun hf => ?_⟩, rest _, rest _, ?_⟩, rfl⟩
  · subst hf
    exact ⟨rfl, rfl⟩
  · exact startedSafe_of_inactive (not_voiceIsActive_of_level_zero rfl)

/-- `RESET` makes the registers safe, whatever they were (47 R332). -/
theorem resetOp_safe (k : Key) (s : State) : RegistersSafe (resetOp k s) where
  written := rfl
  sound := fun i => by
    rw [resetOp_voices, getVoice_mapVoices]
    exact (voiceReset_sound _ _ _).1
  begun := .inr fun i => by
    rw [resetOp_voices, getVoice_mapVoices]
    exact (voiceReset_sound _ _ _).2

/-- A host command taken between blocks keeps the condition of 70 R384 and reads no UNSET register. -/
theorem CommandEffect.unsetSafe {s t : State} {c : HostCommand} (h : CommandEffect s c t) (hf : s.fault = none)
    (hb : s.block = none) (hs : unsetSafe s = true) : unsetSafe t = true ∧ t.fault ≠ some .unsetRead := by
  have same : s.fault ≠ some .unsetRead := ne_of_eq_of_ne hf nofun
  cases h with
  | allocated => exact ⟨unsetSafe_of_not_ready nofun, same⟩
  | deallocated => exact ⟨unsetSafe_of_not_ready nofun, same⟩
  | allocateRefused => exact ⟨hs, same⟩
  | blockRefused => exact ⟨hs, same⟩
  | reset =>
    have outside : insideSegment (complete (resetOp (stepKey s) s)) = false := by
      rw [insideSegment, complete_block, resetOp_block, hb]
    obtain ⟨written, sound, begun⟩ := resetOp_safe (stepKey s) s
    exact ⟨unsetSafe_of_outside ⟨written, sound, begun⟩ outside, same⟩
  | accepted p es n c hr hl =>
    obtain ⟨⟨written, sound, begun⟩, -⟩ := readySafe_iff.1 (readySafe_of_unsetSafe hs hr)
    exact ⟨unsetSafe_of_outside ⟨written, sound, begun⟩ rfl, same⟩
  | notReady p es n c hr => exact ⟨unsetSafe_of_not_ready hr, nofun⟩

end Sys2Proof.Machine
end

section
/-!
SUPPORT. The outcomes that are no next state (60_exceptions.md R352, R353, R365): the model refuses nothing, a host command
stops only in the fault state, and an event only where the doubling loop of a note hangs.
-/

namespace Sys2Proof.Machine

open Sys2Proof.Claims

/-! ## Host commands -/

/-- In the fault state no command has an effect (60 R352, R359). -/
theorem execCommand_of_stuck {s : State} {code : FaultCode} (hf : s.fault = some code) (c : HostCommand) :
    exec (commandInstr c) s = .fault (.stuck code) := by
  cases c <;> exact unlessStuck_of_some hf

/-- Without a fault every command has a next state; a refusal of 60 R353 is one (log 13). -/
theorem execCommand_of_live {s : State} (hf : s.fault = none) (c : HostCommand) :
    ∃ t, exec (commandInstr c) s = .next t := by
  have live {r : Result} (h : ∃ t, r = .next t) : ∃ t, unlessStuck s r = .next t := by rwa [unlessStuck_of_none hf]
  cases c with
  | allocate rate bs =>
    refine live ?_
    dsimp only
    split <;> exact ⟨_, rfl⟩
  | deallocate => exact live ⟨_, rfl⟩
  | reset => exact live ⟨_, rfl⟩
  | processBlock p es n c =>
    refine live ?_
    split
    · split <;> exact ⟨_, rfl⟩
    · exact ⟨_, rfl⟩

/-! ## Events -/

/-- An operation that may halt is never refused. -/
theorem finish_ne_refused (s : State) (r : Except Halt State) (q : Refusal) : finish s r ≠ .refused q := by
  match r with
  | .ok _ => exact nofun
  | .error .unset => exact nofun
  | .error .hang => exact nofun

/-- An operation has no next state only if it hangs. -/
theorem finish_fault {s : State} {r : Except Halt State} {f : Fault} (h : finish s r = .fault f) :
    r = .error .hang ∧ f = .hang := by
  match r with
  | .ok _ => cases h
  | .error .unset => cases h
  | .error .hang => cases h; exact ⟨rfl, rfl⟩

/-- Of the operations of a note-off only the retune of the mono pop may hang (44 R234). -/
theorem mono_of_noteOffOp_hang {k : Key} {n : Int} {s : State} (h : noteOffOp k n s = .error .hang) :
    s.snapshot.numVoices = 1 := by
  by_contra hmono
  refine bind_ne_hang ?_ (fun t => ?_) h
  · rw [popIfSounding, if_neg (mt isMono_iff.1 hmono)]
    exact pure_ne_hang s
  · exact bind_ne_hang (need_ne_hang _) fun _ => bind_ne_hang (need_ne_hang _) fun _ => pure_ne_hang _

/-- The sustain pedal hangs only going up, in the note-off it runs (44 R240). -/
theorem noteOffOp_hang_of_sustainOp {k : Key} {val : BitVec 7} {s : State} (h : sustainOp k val s = .error .hang) :
    pedalPressed val = false ∧ noteOffOp k (-1) (writePedal (pedalPressed val) s) = .error .hang := by
  unfold sustainOp at h
  dsimp only at h
  split at h
  · cases h
  · exact ⟨Bool.eq_false_iff.2 ‹_›, h⟩

/-- An event without a next state is a note that hangs: a note-on, or in mono mode an event that releases a note
(45 R260; 60 R365). -/
theorem exec_event_fault {i : Instr} {s : State} {r : Fault} (hi : encodeCommand i = none) (h : exec i s = .fault r) :
    r = .hang ∧ ((∃ ch n vel, i = .noteOn ch n vel) ∨ (s.snapshot.numVoices = 1 ∧ (releasedNote i).isSome = true)) := by
  cases i <;> simp only [encodeCommand, reduceCtorEq] at hi
  case noteOn ch n vel => exact ⟨(finish_fault h).2, .inl ⟨ch, n, vel, rfl⟩⟩
  case noteOff | noteOnV0 =>
    obtain ⟨hhang, rfl⟩ := finish_fault h
    exact ⟨rfl, .inr ⟨mono_of_noteOffOp_hang hhang, rfl⟩⟩
  case ccSustain ch val =>
    obtain ⟨hhang, rfl⟩ := finish_fault h
    obtain ⟨hup, hhang⟩ := noteOffOp_hang_of_sustainOp hhang
    have up : val.toNat < 64 := Int.ofNat_lt.1 (not_le.1 (of_decide_eq_false hup))
    have mono := mono_of_noteOffOp_hang hhang
    exact ⟨rfl, .inr ⟨mono, by rw [releasedNote, if_pos up]; rfl⟩⟩
  all_goals cases h

/-! ## Every instruction and every step -/

/-- No arm of the dispatch is rejected: an instruction is a command, an event that may halt, or an event that completes. -/
theorem exec_ne_refused (i : Instr) (s : State) (q : Refusal) : exec i s ≠ .refused q := by
  have command (c : HostCommand) : exec (commandInstr c) s ≠ .refused q := by
    cases hf : s.fault with
    | none =>
      obtain ⟨t, ht⟩ := execCommand_of_live hf c
      rw [ht]
      exact nofun
    | some code =>
      rw [execCommand_of_stuck hf]
      exact nofun
  cases i
  case noteOff | noteOnV0 | noteOn | ccSustain => exact finish_ne_refused _ _ _
  case allocate rate bs => exact command (.allocate rate bs)
  case deallocate => exact command .deallocate
  case reset => exact command .reset
  case processBlock p es n c => exact command (.processBlock p es n c)
  all_goals exact nofun

theorem mapNext_ne_refused {f : State → State} {r : Result} {q : Refusal} (h : r ≠ .refused q) :
    mapNext f r ≠ .refused q := by
  cases r with
  | refused p => exact h
  | next t => exact nofun
  | fault f => exact nofun

/-- No step of a block is refused: a record that does not decode is passed over (47 R320, R324). -/
theorem blockStep_ne_refused (b : Block) (s : State) (q : Refusal) : blockStep b s ≠ .refused q := by
  by_cases hc : b.cursor < segmentEnd b
  · rw [blockStep_of_cursor_lt hc]
    exact finish_ne_refused _ _ _
  · cases he : nextEvent b with
    | some e =>
      rw [segmentEnd_of_some he] at hc
      rw [blockStep_of_some he, if_neg hc, applyEvent]
      split
      · exact mapNext_ne_refused (exec_ne_refused _ _ _)
      · exact nofun
    | none =>
      rw [segmentEnd_of_none he] at hc
      rw [blockStep_of_none he, if_neg hc]
      exact nofun

theorem commandStep_ne_refused (s : State) (q : Refusal) : commandStep s ≠ .refused q := by
  unfold commandStep
  split
  · exact nofun
  · exact mapNext_ne_refused (exec_ne_refused _ _ _)

theorem step_of_stuck {s : State} {code : FaultCode} (hf : s.fault = some code) : step s = .fault (.stuck code) := by
  simp only [step, hf]

/-- No step is refused (60 R353). -/
theorem step_ne_refused (s : State) (q : Refusal) : step s ≠ .refused q := by
  cases hf : s.fault with
  | some code =>
    rw [step_of_stuck hf]
    exact nofun
  | none =>
    cases hb : s.block with
    | some b =>
      rw [step_of_block hf hb]
      exact blockStep_ne_refused b s q
    | none =>
      rw [step_of_no_block hf hb]
      exact commandStep_ne_refused s q

end Sys2Proof.Machine
end

section
/-!
PROOFS. The statements of the families of 60_exceptions.md and 70_reset_and_hazards.md.
-/

namespace Sys2Proof.Proofs

open Sys2Proof.Machine

/-- Settles O54. Inside a block by the invariant of a READY machine's registers, which the frames and the events keep;
between blocks by cases on the host command that is taken. -/
theorem unsetRegistersAreNeverRead : Obligations.UnsetRegistersAreNeverRead := by
  intro s t hok hs h
  obtain ⟨hf, heffect⟩ := step_next h
  suffices unsetSafe t = true ∧ t.fault ≠ some .unsetRead from ⟨this.1, fun _ => this.2⟩
  cases heffect with
  | idle => exact ⟨hs, ne_of_eq_of_ne hf nofun⟩
  | command c rest u hb _ hu => exact hu.unsetSafe (s := { s with commands := rest }) hf hb hs
  | frame b _ hb | frameFault b hb | event b _ _ hb | blockEnd b hb =>
    obtain hhang | ⟨u, hu, hfault, hsafe⟩ := step_of_block_safe hf hb hok hs
    · rw [h] at hhang
      cases hhang
    · rw [h] at hu
      cases hu
      exact ⟨hsafe, ne_of_eq_of_ne hfault nofun⟩

/-- Settles O11. A host command goes on where there is no fault, and an event stops only where its note hangs. -/
theorem onlyNotesCanHang : Obligations.OnlyNotesCanHang := by
  refine ⟨step_ne_refused, fun i s r hf h => ?_⟩
  cases hi : encodeCommand i with
  | none => exact exec_event_fault hi h
  | some c =>
    obtain ⟨t, ht⟩ := execCommand_of_live hf c
    obtain ⟨-, command, -⟩ := decodeEncodeRoundTrip
    rw [command i c hi, h] at ht
    cases ht

/-- Settles O58: what an event writes is none of these registers. -/
theorem eventsLeaveRenderRegisters : Obligations.EventsLeaveRenderRegisters := by
  intro bytes s t h
  obtain rfl | ⟨_, _, _, _, _, _, _, rfl⟩ := applyEvent_next h <;> exact ⟨rfl, rfl, rfl, rfl, rfl, rfl, rfl, rfl⟩

/-- Settles O9: the fault register is looked at before anything else. -/
theorem stuckMachineHasNoStep : Obligations.StuckMachineHasNoStep := fun _ _ hf =>
  ⟨step_of_stuck hf, execCommand_of_stuck hf⟩

end Sys2Proof.Proofs
end
